-- ==== Sys2Proof/Word.lean ====
section
/-! DEFINITION. The word types of the MSC: bytes, 32-bit words, byte strings (R10, R11). -/

namespace Sys2Proof

/-- A byte, an integer 0..255 (R10). -/
abbrev Byte := BitVec 8

/-- A 32-bit word: a register, a bus access's data, a command word (R203, R301). -/
abbrev Word := BitVec 32

/-- A byte string `s` with `s[0]` first (R10). -/
abbrev ByteString := List Byte

end Sys2Proof
end

