-- ==== Sys2Proof/Machine/Bytes.lean ====
section
/-! DEFINITION. Byte strings and their integers (R10, R11 of 00_scope.md). -/

namespace Sys2Proof.Machine

/-- `BE_k(v)`: the `k`-byte big-endian encoding of `v mod 256^k` (R11). -/
def beBytes : Nat → Nat → ByteString
  | 0, _ => []
  | k + 1, v => BitVec.ofNat 8 (v / 256 ^ k) :: beBytes k v

/-- `LE_k(v)`: the `k`-byte little-endian encoding of `v mod 256^k` (R11). -/
def leBytes : Nat → Nat → ByteString
  | 0, _ => []
  | k + 1, v => BitVec.ofNat 8 v :: leBytes k (v / 256)

/-- `int_BE(s)`: the integer whose big-endian encoding is `s`; 0 for the empty string (R11). -/
def intBE (s : ByteString) : Nat := s.foldl (fun acc b => 256 * acc + b.toNat) 0

/-- The integer whose little-endian encoding is `s`: `sum of s[j] * 256^j` (R210). -/
def intLE : ByteString → Nat
  | [] => 0
  | b :: s => b.toNat + 256 * intLE s

/-- `0^k`: `k` bytes of value 0x00 (R10). -/
def zeros (k : Nat) : ByteString := List.replicate k 0

/-- Bytewise exclusive-or of two strings of equal length (R11). -/
def xorBytes (a b : ByteString) : ByteString := List.zipWith (· ^^^ ·) a b

/-- `s[i..j)`: bytes `i` to `j-1`, empty when `j <= i` (R10). -/
def slice (s : ByteString) (i j : Nat) : ByteString := (s.take j).drop i

/-- `s[i]`; 0x00 past the end, which no rule reads. -/
def byteAt (s : ByteString) (i : Nat) : Byte := s.getD i 0

/-- The first `k` blocks of `n` bytes of `s`. -/
def takeBlocks (n : Nat) : Nat → ByteString → List ByteString
  | 0, _ => []
  | k + 1, s => s.take n :: takeBlocks n k (s.drop n)

/-- `s`, whose length is a multiple of `n`, split into `n`-byte blocks (R604, R712, R713). -/
def blocksOf (n : Nat) (s : ByteString) : List ByteString := takeBlocks n (s.length / n) s

/-- `s || 0^z` with the least `z` that makes the length a multiple of `n` (R712, R713). -/
def zeroPad (n : Nat) (s : ByteString) : ByteString := s ++ zeros ((n - s.length % n) % n)

end Sys2Proof.Machine
end

