-- ==== Sys2Proof/Config.lean ====
section
/-! DEFINITION. The fixed parameters of R8 (00_scope.md) and the open parameters of R9, which have no value:
each open one is an opaque constant, so that no proof can see what it is. -/

namespace Sys2Proof.Config

/-! ### Fixed parameters (R8) -/

/-- KEY_BYTES (AES-128). -/
@[simp] abbrev keyBytes : Nat := 16
/-- NONCE_BYTES. -/
@[simp] abbrev nonceBytes : Nat := 12
/-- TAG_BYTES. -/
@[simp] abbrev tagBytes : Nat := 4
/-- CCM_Q, the length-field bytes, 15 - NONCE_BYTES. -/
@[simp] abbrev ccmQ : Nat := 15 - nonceBytes
/-- IV_BYTES, NONCE_BYTES - 4 - 4. -/
@[simp] abbrev ivBytes : Nat := nonceBytes - 4 - 4
/-- AAD_MAX. -/
@[simp] abbrev aadMax : Nat := 64
/-- BUF_BYTES, of the IN and of the OUT buffer. -/
@[simp] abbrev bufBytes : Nat := 512
/-- SALT_MAX. -/
@[simp] abbrev saltMax : Nat := 64
/-- IKM_MAX. -/
@[simp] abbrev ikmMax : Nat := 64
/-- PRIV_MAX. -/
@[simp] abbrev privMax : Nat := 36
/-- RAW_PUB_BYTES. -/
@[simp] abbrev rawPubBytes : Nat := 64
/-- SHARED_BYTES. -/
@[simp] abbrev sharedBytes : Nat := 32
/-- OKM_BYTES. -/
@[simp] abbrev okmBytes : Nat := 64
/-- HMAC_BYTES. -/
@[simp] abbrev hmacBytes : Nat := 32
/-- FRAME_MIN. -/
@[simp] abbrev frameMin : Nat := 15
/-- WINDOW_BYTES. -/
@[simp] abbrev windowBytes : Nat := 2048

/-! ### Open parameters (R9): opaque, no value -/

/-- Which 2048-byte block of the bus holds the window: open (R9, R201). -/
opaque mscBaseBlock : Nat

/-- `MSC_BASE`, a multiple of 2048 (R201), otherwise open. -/
def mscBase : Nat := windowBytes * mscBaseBlock

/-- `CRC16_FN` (R801): a pure function to two bytes `c0 c1`, of which nothing is known. -/
opaque crc16Fn : ByteString → Byte × Byte

/-- `ENTROPY` (R923): the answer to the `k`-th draw, `none` for FAIL, else a number that the request
brings into its range (`scalarAnswer`, `bytesAnswer`). A free value: nothing constrains it (log 1). -/
opaque entropyAnswer : Nat → Option Nat

/-- The bytes that would encode the point at infinity: R506 says it "has no raw encoding". A free value
that no command reaches (log 10). -/
opaque infinityByte : Nat → Byte

end Sys2Proof.Config
end

