-- ==== Sys2Proof/Syntax.lean ====
section
/-! DEFINITION. The commands of the MSC (R306 of 30_encoding.md) and the fields of a command word (R301). -/

namespace Sys2Proof

/-- The 15 commands, one constructor per row of the opcode map (R306); the flags are R312's. -/
inductive Instr where
  /-- NOP (R416). -/
  | nop
  /-- ZEROIZE (R417). -/
  | zeroize
  /-- EC_KEYGEN (R511). -/
  | ecKeygen
  /-- EC_IMPORT_PRIV (R512). -/
  | ecImportPriv
  /-- EC_EXPORT_PRIV (R513). -/
  | ecExportPriv
  /-- EC_IMPORT_PUB (R514). -/
  | ecImportPub
  /-- EC_AGREE (R515). -/
  | ecAgree
  /-- HKDF (R613): F0 = SALTP, F1 = IKMSRC. -/
  | hkdf (saltp ikmsrc : Bool)
  /-- HMAC (R614). -/
  | hmac
  /-- CCM_ENC (R719). -/
  | ccmEnc
  /-- CCM_DEC (R720). -/
  | ccmDec
  /-- DEVID_ENC (R721). -/
  | devidEnc
  /-- FRAME_ENC (R809): F0 = PADSRC. -/
  | frameEnc (padsrc : Bool)
  /-- FRAME_DEC (R811). -/
  | frameDec
  /-- CRC16 (R803). -/
  | crc16
  deriving DecidableEq, Repr

/-- The four fields of a command word (R301 to R305), legal or not. -/
structure CmdFields where
  /-- bits 7:0 (R302). -/
  opcode : BitVec 8
  /-- bit 8 (R303). -/
  f0 : Bool
  /-- bit 9 (R304). -/
  f1 : Bool
  /-- bits 31:10 (R305). -/
  rsvd : BitVec 22
  deriving DecidableEq, Repr

/-- Why a command word is illegal: the four cases (a) to (d) of R308. All give ILLEGAL_CMD (log 14). -/
inductive Illegal where
  /-- (a): the OPCODE is not in the map of R306. -/
  | unknownOpcode
  /-- (b): RSVD is not 0. -/
  | reservedBits
  /-- (c): F0 = 1 for an opcode whose F0 column is 0. -/
  | flag0
  /-- (d): F1 = 1 for an opcode whose F1 column is 0. -/
  | flag1
  deriving DecidableEq, Repr

end Sys2Proof
end

