-- ==== Sys2Proof/Machine/State.lean ====
section
/-! DEFINITION. The state of the MSC (R101 to R144 of 10_state.md) and of the agents around it (R401), as plain data. -/

namespace Sys2Proof.Machine

/-- Why a step would stop the machine: never. The MSC has no trap and every access and command has a defined
effect (R901, R918; 93_implementation_defined.md "No access or command has an undefined or unpredictable
result"): a failing command completes with a code, a refused access is answered with a bus error. Nothing raises
a fault, so the type has no constructor (safe: no stop hides a behaviour). -/
inductive Fault where
  deriving DecidableEq, Repr

/-- Why a step would refuse: only the interface's own reason. -/
inductive Refusal where
  /-- An instruction with no meaning in `exec`. Raised by no arm: every command has its meaning (safe). -/
  | notModelled (mnemonic : String)
  deriving DecidableEq, Repr

/-- The 21 registers of R102 to R123, ID, VERSION, STATUS and CMD (which hold no storage) among them. -/
inductive Reg where
  | id | version | ctrl | status | cmd | result | irqEn | irqStat
  | aadLen | inLen | outLen | saltLen | ikmLen | privLen
  | counter | rxCtrHi | rxCounter | rxSize | crcResult | pad | iv
  deriving DecidableEq, Repr

/-- The 11 byte buffers of R124 to R134. -/
inductive Buffer where
  | key | nonce | aad | salt | ikm | priv | pub | peer | shared | input | output
  deriving DecidableEq, Repr

/-- The access types of the map of R101. -/
inductive Access where
  | readOnly | writeOnly | readWrite | writeOneToClear
  deriving DecidableEq, Repr

/-- A mapped 32-bit location of the window (R202): a register, or the word of a buffer at a byte index. -/
inductive Location where
  | reg (r : Reg)
  | buf (b : Buffer) (index : Nat)
  deriving DecidableEq, Repr

/-- The error codes of R902 to R911. -/
inductive ErrCode where
  | ok | illegalCmd | lenErr | authFail | frameErr | crcErr | invalidKey | keyAgreement | entropyErr | ctrExhausted
  deriving DecidableEq, Repr

/-- The engine's sequencing state (R139): IDLE, or BUSY with the command word latched at issue. -/
inductive Fsm where
  | idle
  | busy (w : Word)
  deriving DecidableEq, Repr

/-- A host bus access (R13): a bus address, a width in bytes, and a write's value. Widths other than 4 are
refused (R205), whatever value they would carry. -/
inductive BusAccess where
  | read (addr bytes : Nat)
  | write (addr bytes : Nat) (v : Word)
  deriving DecidableEq, Repr

/-- The answer to a host bus access. -/
inductive BusReply where
  /-- A read that is performed (R217). -/
  | readData (v : Word)
  /-- A write that is accepted: performed, ignored (R208), or dropped while BUSY (R216; log 13). -/
  | writeAck
  /-- A refused read: "returns 0x00000000 with the error response" (R205). -/
  | readError (v : Word)
  /-- A refused write (R205). -/
  | writeError
  /-- The address is outside the window: the MSC does not decode it and gives no answer (R206; log 6). -/
  | notDecoded
  deriving DecidableEq, Repr

/-- A host access that was performed, and its answer: an entry of the host's trace (R316, R1018). -/
structure BusEvent where
  access : BusAccess
  reply : BusReply
  deriving DecidableEq, Repr

/-- What the host does next: a bus access, or the loop `wait` (R315), which reads STATUS until BUSY = 0. -/
inductive HostOp where
  | access (a : BusAccess)
  | pollIdle
  deriving DecidableEq, Repr

/-- The agents that take steps (R401): the host, the engine, and the platform, whose step is reset (R1001). -/
inductive Agent where
  | host | engine | platform
  deriving DecidableEq, Repr

/-- The bytes of the window's buffers as (window offset, byte) pairs: offsets strictly rising and no zero byte
listed, an unlisted offset reading 0x00, the buffers' reset value (R124 to R134, R144; log 7). -/
abbrev Memory := List Host.Cell

/-- Everything the spec gives the MSC (R101), and the agents around it as plain data (the last five fields).
Registers are held at the width R101 uses, so reserved bits hold nothing (R116, R209; log 8). -/
structure State where
  /-- CTRL[1:0]: CRCCHK, AUTOINC (R104). -/
  ctrl : BitVec 2
  /-- RESULT[15:0]: ERRCODE, LAST_OP (R107). -/
  result : BitVec 16
  /-- IRQ_EN[2:0]: DONE_IE, ERR_IE, OVR_IE (R108). -/
  irqEn : BitVec 3
  /-- IRQ_STAT[2:0]: DONE, ERR, OVR (R109). -/
  irqStat : BitVec 3
  /-- AAD_LEN (R110). -/
  aadLen : BitVec 16
  /-- IN_LEN (R111). -/
  inLen : BitVec 16
  /-- OUT_LEN (R112). -/
  outLen : BitVec 16
  /-- SALT_LEN (R113). -/
  saltLen : BitVec 16
  /-- IKM_LEN (R114). -/
  ikmLen : BitVec 16
  /-- PRIV_LEN (R115). -/
  privLen : BitVec 16
  /-- COUNTER (R117). -/
  counter : BitVec 32
  /-- RX_CTR_HI (R118). -/
  rxCtrHi : BitVec 16
  /-- RX_COUNTER (R119). -/
  rxCounter : BitVec 32
  /-- RX_SIZE[7:0] (R120). -/
  rxSize : BitVec 8
  /-- CRC_RESULT[15:0] (R121). -/
  crcResult : BitVec 16
  /-- PAD (R122). -/
  pad : BitVec 32
  /-- IV (R123). -/
  iv : BitVec 32
  /-- The 11 buffers' bytes, by window offset (R124 to R134). -/
  mem : Memory
  /-- `D`, the private scalar (R135). -/
  d : BitVec 256
  /-- `D_VALID` (R136). -/
  dValid : Bool
  /-- `PEER_VALID` (R137). -/
  peerValid : Bool
  /-- `SHARED_VALID` (R138). -/
  sharedValid : Bool
  /-- `FSM` (R139). -/
  fsm : Fsm
  /-- The MODEL's: which agent moves next; empty: the engine if BUSY, else the host (log 4). -/
  schedule : List Agent
  /-- The MODEL's: what the host still has to do (R313 to R316; log 5). -/
  hostProgram : List HostOp
  /-- The MODEL's: the accesses the host has performed with their answers, newest first (R1018; log 5). -/
  busLog : List BusEvent
  /-- The MODEL's: answers given to the entropy source to return next (R923; log 1). -/
  entropy : List (Option Nat)
  /-- The MODEL's: how many answers were taken from `Config.entropyAnswer` (log 1). -/
  draws : Nat
  deriving DecidableEq, Repr

/-- The reset state (R1002, and the power-on state, R1005): CTRL = 3, every other register 0, every buffer
zero, D = 0, no valid bit, IDLE. The agents' fields are empty (DESIGN CHOICE, log 1, log 4, log 5). -/
def State.reset : State where
  ctrl := 3
  result := 0
  irqEn := 0
  irqStat := 0
  aadLen := 0
  inLen := 0
  outLen := 0
  saltLen := 0
  ikmLen := 0
  privLen := 0
  counter := 0
  rxCtrHi := 0
  rxCounter := 0
  rxSize := 0
  crcResult := 0
  pad := 0
  iv := 0
  mem := []
  d := 0
  dValid := false
  peerValid := false
  sharedValid := false
  fsm := .idle
  schedule := []
  hostProgram := []
  busLog := []
  entropy := []
  draws := 0

end Sys2Proof.Machine
end

