-- ==== Sys2Proof/Machine/Flags.lean ====
section
/-! DEFINITION. The flags of R143: STATUS, IRQ_STAT, RESULT.ERRCODE, the CTRL and IRQ_EN fields, and the interrupt
line (R104, R105, R107 to R109 of 10_state.md; R902 to R916 of 60_exceptions.md). -/

namespace Sys2Proof.Machine

/-- The numbers of the error codes (R902 to R911). -/
def ErrCode.code : ErrCode → BitVec 8
  | .ok => 0x00
  | .illegalCmd => 0x01
  | .lenErr => 0x02
  | .authFail => 0x03
  | .frameErr => 0x04
  | .crcErr => 0x05
  | .invalidKey => 0x06
  | .keyAgreement => 0x07
  | .entropyErr => 0x08
  | .ctrExhausted => 0x09

/-- CTRL.CRCCHK (R104). -/
def State.crcChk (s : State) : Bool := s.ctrl.getLsbD 0

/-- CTRL.AUTOINC (R104). -/
def State.autoInc (s : State) : Bool := s.ctrl.getLsbD 1

/-- STATUS.BUSY: 1 iff `FSM = BUSY(w)` (R105, R139). -/
def State.busyFlag (s : State) : Bool :=
  match s.fsm with
  | .idle => false
  | .busy _ => true

/-- STATUS, a view of the hidden state: bits 3:0 are SHARED_VALID, PEER_VALID, D_VALID, BUSY (R105). -/
def State.status (s : State) : BitVec 4 :=
  BitVec.ofBool s.sharedValid ++ BitVec.ofBool s.peerValid ++ BitVec.ofBool s.dValid ++ BitVec.ofBool s.busyFlag

/-- IRQ_STAT.DONE as a mask (R109). -/
abbrev doneBit : BitVec 3 := 1
/-- IRQ_STAT.ERR as a mask (R109). -/
abbrev errBit : BitVec 3 := 2
/-- IRQ_STAT.OVR as a mask (R109). -/
abbrev ovrBit : BitVec 3 := 4

/-- IRQ_STAT at completion: DONE is set always, ERR when the code is not OK, both sticky (R407). -/
def irqStatAfter (old : BitVec 3) (err : ErrCode) : BitVec 3 :=
  old ||| doneBit ||| (if err = .ok then 0 else errBit)

/-- RESULT at completion: LAST_OP in 15:8, ERRCODE in 7:0 (R107, R406). -/
def resultWord (op : BitVec 8) (err : ErrCode) : BitVec 16 := op ++ err.code

/-- RESULT.ERRCODE (R107). -/
def State.errCode (s : State) : BitVec 8 := s.result.extractLsb' 0 8

/-- RESULT.LAST_OP (R107). -/
def State.lastOp (s : State) : BitVec 8 := s.result.extractLsb' 8 8

/-- The interrupt line: the enabled pending bits' OR (R916). -/
def State.irq (s : State) : Bool :=
  (s.irqStat.getLsbD 0 && s.irqEn.getLsbD 0) || (s.irqStat.getLsbD 1 && s.irqEn.getLsbD 1)
    || (s.irqStat.getLsbD 2 && s.irqEn.getLsbD 2)

/-- The last step of every completion: RESULT, IRQ_STAT and `FSM <- IDLE` (R404 (3), (4)). The MSC's one way to
report a failure; there is no trap entry and no trap return (R901, R918, R919). -/
def State.finish (s : State) (op : BitVec 8) (err : ErrCode) : State :=
  { s with result := resultWord op err, irqStat := irqStatAfter s.irqStat err, fsm := .idle }

end Sys2Proof.Machine
end

