-- ==== Sys2Proof/Machine/Map.lean ====
section
/-! DEFINITION. The register and buffer map of R101 (10_state.md) and its decoding (R202 to R206 of 20_memory.md). -/

namespace Sys2Proof.Machine

/-- The 21 registers in the order of their offsets (R101). -/
def Reg.all : List Reg :=
  [.id, .version, .ctrl, .status, .cmd, .result, .irqEn, .irqStat, .aadLen, .inLen, .outLen, .saltLen,
   .ikmLen, .privLen, .counter, .rxCtrHi, .rxCounter, .rxSize, .crcResult, .pad, .iv]

/-- A register's window offset (R101). -/
def Reg.offset : Reg → Nat
  | .id => 0x000
  | .version => 0x004
  | .ctrl => 0x008
  | .status => 0x00C
  | .cmd => 0x010
  | .result => 0x014
  | .irqEn => 0x018
  | .irqStat => 0x01C
  | .aadLen => 0x020
  | .inLen => 0x024
  | .outLen => 0x028
  | .saltLen => 0x02C
  | .ikmLen => 0x030
  | .privLen => 0x034
  | .counter => 0x038
  | .rxCtrHi => 0x03C
  | .rxCounter => 0x040
  | .rxSize => 0x044
  | .crcResult => 0x048
  | .pad => 0x04C
  | .iv => 0x050

/-- A register's access type (R101). -/
def Reg.access : Reg → Access
  | .id | .version | .status | .result | .outLen | .rxCounter | .rxSize | .crcResult => .readOnly
  | .cmd => .writeOnly
  | .irqStat => .writeOneToClear
  | .ctrl | .irqEn | .aadLen | .inLen | .saltLen | .ikmLen | .privLen | .counter | .rxCtrHi | .pad | .iv => .readWrite

/-- The 11 buffers in the order of their offsets (R101). -/
def Buffer.all : List Buffer :=
  [.key, .nonce, .aad, .salt, .ikm, .priv, .pub, .peer, .shared, .input, .output]

/-- The window offset of a buffer's byte 0 (R101). -/
def Buffer.base : Buffer → Nat
  | .key => 0x100
  | .nonce => 0x110
  | .aad => 0x140
  | .salt => 0x180
  | .ikm => 0x1C0
  | .priv => 0x200
  | .pub => 0x240
  | .peer => 0x280
  | .shared => 0x2C0
  | .input => 0x400
  | .output => 0x600

/-- A buffer's size in bytes (R101, R8). -/
def Buffer.size : Buffer → Nat
  | .key => 16
  | .nonce => 12
  | .aad => 64
  | .salt => 64
  | .ikm => 64
  | .priv => 36
  | .pub => 64
  | .peer => 64
  | .shared => 32
  | .input => 512
  | .output => 512

/-- A buffer's access type (R101). -/
def Buffer.access : Buffer → Access
  | .key => .writeOnly
  | .pub | .shared | .output => .readOnly
  | .nonce | .aad | .salt | .ikm | .priv | .peer | .input => .readWrite

/-- The offset lies in the buffer. -/
def Buffer.holds (b : Buffer) (off : Nat) : Bool := b.base ≤ off && off < b.base + b.size

/-- The location of an aligned offset, `none` where the map has a hole (R202, R206). -/
def locate (off : Nat) : Option Location :=
  match Reg.all.find? fun r => r.offset == off with
  | some r => some (.reg r)
  | none =>
    match Buffer.all.find? fun b => b.holds off with
    | some b => some (.buf b (off - b.base))
    | none => none

/-- The location an access of a width reaches, `none` for a bus error: a width other than 32 bits, an offset
that is not a multiple of 4, or an unmapped offset (R203 to R206). -/
def accessLocation (off bytes : Nat) : Option Location :=
  if bytes = 4 ∧ off % 4 = 0 then locate off else none

/-- The window offset of a bus address, `none` outside the window (R201, R202, R206). -/
def windowOffset (addr : Nat) : Option Nat :=
  if Config.mscBase ≤ addr ∧ addr < Config.mscBase + Config.windowBytes then some (addr - Config.mscBase) else none

end Sys2Proof.Machine
end

