-- ==== Sys2Proof/Machine/Memory.lean ====
section
/-! DEFINITION. The bytes of the buffers in canonical form: offsets strictly rising, no zero byte listed; an
unlisted offset reads 0x00 (R124 to R134, R144; log 7). -/

namespace Sys2Proof.Machine

/-- What an offset that is not listed reads as: the reset value of every buffer byte (R1002). -/
abbrev unlistedByte : Byte := 0

/-- The byte at an offset. -/
def Memory.read : Memory → Nat → Byte
  | [], _ => unlistedByte
  | (k, v) :: m, a => if a = k then v else Memory.read m a

/-- Write one byte, keeping the canonical form (writing 0x00 removes the entry). -/
def Memory.write : Memory → Nat → Byte → Memory
  | [], a, b => if b = unlistedByte then [] else [(a, b)]
  | (k, v) :: m, a, b =>
    if a < k then (if b = unlistedByte then (k, v) :: m else (a, b) :: (k, v) :: m)
    else if a = k then (if b = unlistedByte then m else (a, b) :: m)
    else (k, v) :: Memory.write m a b

/-- The `n` bytes from an offset on. -/
def Memory.readBytes (m : Memory) : Nat → Nat → ByteString
  | _, 0 => []
  | a, n + 1 => Memory.read m a :: Memory.readBytes m (a + 1) n

/-- Write a byte string from an offset on. -/
def Memory.writeBytes (m : Memory) : Nat → ByteString → Memory
  | _, [] => m
  | a, b :: s => Memory.writeBytes (Memory.write m a b) (a + 1) s

/-- Zero the `n` bytes from an offset on. -/
def Memory.clear (m : Memory) (a n : Nat) : Memory := m.filter fun c => c.1 < a || a + n ≤ c.1

/-- The offsets strictly rise from above `lo` and no listed byte is 0x00. -/
def Memory.risingFrom : Nat → Memory → Bool
  | _, [] => true
  | lo, (k, v) :: m => decide (lo ≤ k) && v != unlistedByte && Memory.risingFrom (k + 1) m

/-- The canonical form: equal memories are equal data. -/
def Memory.wf (m : Memory) : Bool := Memory.risingFrom 0 m

end Sys2Proof.Machine
end

