-- ==== Sys2Proof/Machine/Ops.lean ====
section
/-! DEFINITION. The operations every command is built from: reading and filling a buffer, the entropy draw, the two
ways an OUT writer ends, an illegal word's completion, and reset (R12, R14 of 00_scope.md; R404 to R412 of
40_command_model.md; R923 of 60_exceptions.md; R1001 to R1003 of 70_reset_and_hazards.md). -/

namespace Sys2Proof.Machine

/-- `buf(NAME)`: all bytes of a buffer (R12). -/
def State.buf (s : State) (b : Buffer) : ByteString := Memory.readBytes s.mem b.base b.size

/-- `buf(NAME)[0..n)`: the first `n` bytes, for `n` within the buffer (R12). -/
def State.bufTake (s : State) (b : Buffer) (n : Nat) : ByteString := (s.buf b).take n

/-- `buf(NAME) <- r || 0^(size-|r|)`: a buffer filled from byte 0, its rest zero (R409, R410, R513). -/
def State.fillBuf (s : State) (b : Buffer) (r : ByteString) : State :=
  { s with mem := Memory.writeBytes (Memory.clear s.mem b.base b.size) b.base (r.take b.size) }

/-- The entropy source's answer to the next request, `none` for FAIL (R923): what the environment has given it
to say next, else the free value of this draw (log 1). -/
def State.entropyAnswer (s : State) : Option Nat := s.entropy.headD (Config.entropyAnswer s.draws)

/-- The state after one request to the entropy source: that answer is used up. -/
def State.afterDraw (s : State) : State :=
  { s with entropy := s.entropy.tail, draws := s.draws + (if s.entropy.isEmpty then 1 else 0) }

/-- `ENTROPY.bytes(k)`: `k` bytes in the order returned, or FAIL (R808, R923). -/
def State.entropyBytes (s : State) (k : Nat) : Option ByteString := s.entropyAnswer.map (beBytes k)

/-- The success writes of an OUT writer with result `r` (R409). -/
def State.setOut (s : State) (r : ByteString) : State :=
  { s.fillBuf .output r with outLen := BitVec.ofNat 16 r.length }

/-- An OUT writer ends with `ok`: OUT, OUT_LEN, then the completion's own writes (R404, R409). -/
def State.succeedOut (s : State) (op : BitVec 8) (r : ByteString) : State := (s.setOut r).finish op .ok

/-- An OUT writer ends with `fail`: OUT is zeroed, OUT_LEN is 0, and nothing else is written (R404, R410). -/
def State.failOut (s : State) (op : BitVec 8) (err : ErrCode) : State := (s.setOut []).finish op err

/-- The completion of an illegal word: RESULT, IRQ_STAT and FSM change, nothing else (R308, R412, R903). -/
def State.completeIllegal (s : State) (w : Word) : State := s.finish (w.extractLsb' 0 8) .illegalCmd

/-- The word whose completion is the engine's step, if it is BUSY (R402): what the step "fetches". -/
def State.latchedWord (s : State) : Option Word :=
  match s.fsm with
  | .idle => none
  | .busy w => some w

/-- Reset, a step of the platform (R1001): every register, buffer and hidden state takes its reset value and a
command in flight is abandoned (R1002, R1003). The agents around the MSC are not reset (log 12). -/
def State.platformReset (s : State) : State :=
  { State.reset with
    schedule := s.schedule, hostProgram := s.hostProgram, busLog := s.busLog, entropy := s.entropy, draws := s.draws }

end Sys2Proof.Machine
end

