-- ==== Sys2Proof/Machine/Bus.lean ====
section
/-! DEFINITION. The host's accesses to the window (R201 to R217 of 20_memory.md; R102 to R134 of 10_state.md; R315 of
30_encoding.md for the poll loop). -/

namespace Sys2Proof.Machine

/-- The value a read of a register returns: hard-wired for ID and VERSION (R102, R103), a view for STATUS (R105),
0 for CMD (R106, R207), and the stored bits with the reserved bits 0 for the others (R116, R209). -/
def State.regRead (s : State) : Reg → Word
  | .id => 0x4D534331
  | .version => 0x00000001
  | .ctrl => s.ctrl.setWidth 32
  | .status => s.status.setWidth 32
  | .cmd => 0
  | .result => s.result.setWidth 32
  | .irqEn => s.irqEn.setWidth 32
  | .irqStat => s.irqStat.setWidth 32
  | .aadLen => s.aadLen.setWidth 32
  | .inLen => s.inLen.setWidth 32
  | .outLen => s.outLen.setWidth 32
  | .saltLen => s.saltLen.setWidth 32
  | .ikmLen => s.ikmLen.setWidth 32
  | .privLen => s.privLen.setWidth 32
  | .counter => s.counter
  | .rxCtrHi => s.rxCtrHi.setWidth 32
  | .rxCounter => s.rxCounter
  | .rxSize => s.rxSize.setWidth 32
  | .crcResult => s.crcResult.setWidth 32
  | .pad => s.pad
  | .iv => s.iv

/-- A performed write of a register: issue for CMD (R403), write-one-to-clear for IRQ_STAT (R109), nothing for a
read-only register (R208), else the used bits of the value (R116, R209). -/
def State.regWrite (s : State) (v : Word) : Reg → State
  | .id | .version | .status | .result | .outLen | .rxCounter | .rxSize | .crcResult => s
  | .cmd => { s with fsm := .busy v }
  | .irqStat => { s with irqStat := s.irqStat &&& ~~~(v.setWidth 3) }
  | .ctrl => { s with ctrl := v.setWidth 2 }
  | .irqEn => { s with irqEn := v.setWidth 3 }
  | .aadLen => { s with aadLen := v.setWidth 16 }
  | .inLen => { s with inLen := v.setWidth 16 }
  | .saltLen => { s with saltLen := v.setWidth 16 }
  | .ikmLen => { s with ikmLen := v.setWidth 16 }
  | .privLen => { s with privLen := v.setWidth 16 }
  | .counter => { s with counter := v }
  | .rxCtrHi => { s with rxCtrHi := v.setWidth 16 }
  | .pad => { s with pad := v }
  | .iv => { s with iv := v }

/-- The word of a buffer at a byte index: byte `index + j` in bits `8j+7:8j`; a write-only buffer reads 0 (R207,
R210). -/
def State.bufWordRead (s : State) (b : Buffer) (index : Nat) : Word :=
  match b.access with
  | .writeOnly => 0
  | .readOnly | .readWrite | .writeOneToClear =>
    BitVec.ofNat 32 (intLE (Memory.readBytes s.mem (b.base + index) 4))

/-- A performed write of a buffer's word, in the same lanes; a read-only buffer ignores it (R208, R210), and a write
to PEER clears PEER_VALID (R131). -/
def State.bufWordWrite (s : State) (v : Word) (b : Buffer) (index : Nat) : State :=
  match b.access with
  | .readOnly => s
  | .writeOnly | .readWrite | .writeOneToClear =>
    { s with
      mem := Memory.writeBytes s.mem (b.base + index) (leBytes 4 v.toNat)
      peerValid := if b = .peer then false else s.peerValid }

/-- The value a read of a mapped location returns (R217: the current value, in either FSM state). -/
def State.locationRead (s : State) : Location → Word
  | .reg r => s.regRead r
  | .buf b index => s.bufWordRead b index

/-- A write of a mapped location that is performed. -/
def State.locationWrite (s : State) (v : Word) : Location → State
  | .reg r => s.regWrite v r
  | .buf b index => s.bufWordWrite v b index

/-- The two locations a write reaches even while BUSY: IRQ_EN and IRQ_STAT (R216). -/
def Location.writableWhileBusy : Location → Bool
  | .reg r => decide (r = .irqEn ∨ r = .irqStat)
  | .buf _ _ => false

/-- A host write of a mapped location: performed, or dropped while BUSY, which sets IRQ_STAT.OVR (R216, R915). -/
def State.hostWrite (s : State) (v : Word) (l : Location) : State :=
  if s.busyFlag && !l.writableWhileBusy then { s with irqStat := s.irqStat ||| ovrBit } else s.locationWrite v l

/-- A read at a window offset; a refused one returns 0 with the error response (R205). -/
def State.windowRead (s : State) (off bytes : Nat) : BusReply :=
  match accessLocation off bytes with
  | none => .readError 0
  | some l => .readData (s.locationRead l)

/-- A write at a window offset; a refused one changes nothing, not even IRQ_STAT.OVR (R205). -/
def State.windowWrite (s : State) (off bytes : Nat) (v : Word) : State :=
  match accessLocation off bytes with
  | none => s
  | some l => s.hostWrite v l

/-- The answer to a write at a window offset (R205, R208, R216). -/
def writeReply (off bytes : Nat) : BusReply :=
  match accessLocation off bytes with
  | none => .writeError
  | some _ => .writeAck

/-- The answer to a bus access (R202; an address outside the window is not decoded, R206). -/
def State.busReply (s : State) : BusAccess → BusReply
  | .read addr bytes =>
    match windowOffset addr with
    | none => .notDecoded
    | some off => s.windowRead off bytes
  | .write addr bytes _ =>
    match windowOffset addr with
    | none => .notDecoded
    | some off => writeReply off bytes

/-- What a bus access does to the MSC: a read nothing (R215), a write in the window `windowWrite`. -/
def State.busEffect (s : State) : BusAccess → State
  | .read _ _ => s
  | .write addr bytes v =>
    match windowOffset addr with
    | none => s
    | some off => s.windowWrite off bytes v

/-- One access of the host: its effect, and its answer in the host's trace (R214, R218). -/
def State.hostAccess (s : State) (a : BusAccess) : State :=
  { s.busEffect a with busLog := ⟨a, s.busReply a⟩ :: s.busLog }

/-- The read of STATUS in the loop `wait` (R315). -/
def statusPoll : BusAccess := .read (Config.mscBase + Reg.status.offset) 4

/-- The host's step: its next operation, if it has one. `wait` reads STATUS and goes round again while BUSY (R315). -/
def State.hostMove (s : State) : State :=
  match s.hostProgram with
  | [] => s
  | .access a :: rest => ({ s with hostProgram := rest }).hostAccess a
  | .pollIdle :: rest => ({ s with hostProgram := if s.busyFlag then s.hostProgram else rest }).hostAccess statusPoll

end Sys2Proof.Machine
end

