-- ==== Sys2Proof/WellFormed.lean ====
section
/-! DEFINITION. Which command words are legal, as R308 says it (four checks), written apart from the decoder:
that the decoder accepts exactly these words is a statement, not a definition. -/

namespace Sys2Proof

/-- The OPCODE column of R306. -/
def listedOpcodes : List (BitVec 8) :=
  [0x00, 0x01, 0x10, 0x11, 0x12, 0x13, 0x14, 0x20, 0x21, 0x30, 0x31, 0x32, 0x40, 0x41, 0x42]

/-- The opcodes whose F0 column names a flag (R306, R312): HKDF's SALTP and FRAME_ENC's PADSRC. -/
def f0Opcodes : List (BitVec 8) := [0x20, 0x40]

/-- The opcodes whose F1 column names a flag (R306, R312): HKDF's IKMSRC. -/
def f1Opcodes : List (BitVec 8) := [0x20]

/-- R308 (a) does not hold: the opcode is in the map. -/
def CmdFields.opcodeListed (c : CmdFields) : Bool := listedOpcodes.contains c.opcode

/-- R308 (b) does not hold: the reserved bits are 0. -/
def CmdFields.reservedZero (c : CmdFields) : Bool := c.rsvd == 0

/-- R308 (c) does not hold: F0 is 0 or the opcode has a flag there. -/
def CmdFields.f0Allowed (c : CmdFields) : Bool := !c.f0 || f0Opcodes.contains c.opcode

/-- R308 (d) does not hold: F1 is 0 or the opcode has a flag there. -/
def CmdFields.f1Allowed (c : CmdFields) : Bool := !c.f1 || f1Opcodes.contains c.opcode

/-- A command word's fields are legal: none of the four cases of R308 holds. -/
def CmdFields.wellFormed (c : CmdFields) : Bool :=
  c.opcodeListed && c.reservedZero && c.f0Allowed && c.f1Allowed

/-- Every term of `Instr` is a legal command: its flags are Booleans (R312 "Each flag is one bit") and it has
no other operand (R311), so that there is nothing to check. -/
def Instr.wellFormed : Instr → Bool
  | .nop | .zeroize => true
  | .ecKeygen | .ecImportPriv | .ecExportPriv | .ecImportPub | .ecAgree => true
  | .hkdf _ _ | .hmac => true
  | .ccmEnc | .ccmDec | .devidEnc => true
  | .frameEnc _ | .frameDec | .crc16 => true

end Sys2Proof
end

