-- ==== Sys2Proof/Decode.lean ====
section
/-! DEFINITION. The decoder and the encoder of command words (R301 to R312 of 30_encoding.md). -/

namespace Sys2Proof

/-- The fields of a word: `w[7:0]`, `w[8]`, `w[9]`, `w[31:10]` (R301). -/
def fieldsOf (w : Word) : CmdFields where
  opcode := w.extractLsb' 0 8
  f0 := w.getLsbD 8
  f1 := w.getLsbD 9
  rsvd := w.extractLsb' 10 22

/-- The word with these fields (R301). -/
def wordOf (c : CmdFields) : Word :=
  c.rsvd ++ BitVec.ofBool c.f1 ++ BitVec.ofBool c.f0 ++ c.opcode

/-- A command with no flags: F0 and F1 must be 0 (R308 (c), (d)). -/
def plainCommand (c : CmdFields) (i : Instr) : Except Illegal Instr :=
  if c.f0 then .error .flag0 else if c.f1 then .error .flag1 else .ok i

/-- The command of the fields, or the case of R308 that makes the word illegal. -/
def decodeFields (c : CmdFields) : Except Illegal Instr :=
  if c.rsvd ≠ 0 then .error .reservedBits
  else match c.opcode.toNat with
    | 0x00 => plainCommand c .nop
    | 0x01 => plainCommand c .zeroize
    | 0x10 => plainCommand c .ecKeygen
    | 0x11 => plainCommand c .ecImportPriv
    | 0x12 => plainCommand c .ecExportPriv
    | 0x13 => plainCommand c .ecImportPub
    | 0x14 => plainCommand c .ecAgree
    | 0x20 => .ok (.hkdf c.f0 c.f1)
    | 0x21 => plainCommand c .hmac
    | 0x30 => plainCommand c .ccmEnc
    | 0x31 => plainCommand c .ccmDec
    | 0x32 => plainCommand c .devidEnc
    | 0x40 => if c.f1 then .error .flag1 else .ok (.frameEnc c.f0)
    | 0x41 => plainCommand c .frameDec
    | 0x42 => plainCommand c .crc16
    | _ => .error .unknownOpcode

/-- The command of a word, total over all 2^32 words (R310: every command is one word). -/
def decode (w : Word) : Except Illegal Instr := decodeFields (fieldsOf w)

/-- The OPCODE of a command (R306). -/
def opcode : Instr → BitVec 8
  | .nop => 0x00
  | .zeroize => 0x01
  | .ecKeygen => 0x10
  | .ecImportPriv => 0x11
  | .ecExportPriv => 0x12
  | .ecImportPub => 0x13
  | .ecAgree => 0x14
  | .hkdf _ _ => 0x20
  | .hmac => 0x21
  | .ccmEnc => 0x30
  | .ccmDec => 0x31
  | .devidEnc => 0x32
  | .frameEnc _ => 0x40
  | .frameDec => 0x41
  | .crc16 => 0x42

/-- F0 of a command: SALTP, PADSRC, else 0 (R312). -/
def flag0 : Instr → Bool
  | .hkdf saltp _ => saltp
  | .frameEnc padsrc => padsrc
  | .nop | .zeroize | .ecKeygen | .ecImportPriv | .ecExportPriv | .ecImportPub | .ecAgree
  | .hmac | .ccmEnc | .ccmDec | .devidEnc | .frameDec | .crc16 => false

/-- F1 of a command: IKMSRC, else 0 (R312). -/
def flag1 : Instr → Bool
  | .hkdf _ ikmsrc => ikmsrc
  | .nop | .zeroize | .ecKeygen | .ecImportPriv | .ecExportPriv | .ecImportPub | .ecAgree
  | .hmac | .ccmEnc | .ccmDec | .devidEnc | .frameEnc _ | .frameDec | .crc16 => false

/-- The word of a command (R307). -/
def encode (i : Instr) : Word :=
  wordOf { opcode := opcode i, f0 := flag0 i, f1 := flag1 i, rsvd := 0 }

/-- The host's question: the instruction the decoder reads from the table's bits `w` of a row of `nbits`
bits. A command is one 32-bit word, written to CMD as it stands, so there is no byte order to apply. -/
def decodeTableWord (nbits w : Nat) : Option Instr :=
  (decode (BitVec.ofNat 32 (w % 2 ^ nbits))).toOption

end Sys2Proof
end

