-- ==== Sys2Proof/Machine/Aes.lean ====
section
/-! DEFINITION. The AES-128 forward cipher (R701 to R708 of 43_aead.md). Blocks, keys and round keys are 16-byte strings. -/

namespace Sys2Proof.Machine

/-- The S-box table of R702: row `hi`, column `lo`. -/
def sboxRows : List (List Byte) := [
  [0x63, 0x7c, 0x77, 0x7b, 0xf2, 0x6b, 0x6f, 0xc5, 0x30, 0x01, 0x67, 0x2b, 0xfe, 0xd7, 0xab, 0x76],
  [0xca, 0x82, 0xc9, 0x7d, 0xfa, 0x59, 0x47, 0xf0, 0xad, 0xd4, 0xa2, 0xaf, 0x9c, 0xa4, 0x72, 0xc0],
  [0xb7, 0xfd, 0x93, 0x26, 0x36, 0x3f, 0xf7, 0xcc, 0x34, 0xa5, 0xe5, 0xf1, 0x71, 0xd8, 0x31, 0x15],
  [0x04, 0xc7, 0x23, 0xc3, 0x18, 0x96, 0x05, 0x9a, 0x07, 0x12, 0x80, 0xe2, 0xeb, 0x27, 0xb2, 0x75],
  [0x09, 0x83, 0x2c, 0x1a, 0x1b, 0x6e, 0x5a, 0xa0, 0x52, 0x3b, 0xd6, 0xb3, 0x29, 0xe3, 0x2f, 0x84],
  [0x53, 0xd1, 0x00, 0xed, 0x20, 0xfc, 0xb1, 0x5b, 0x6a, 0xcb, 0xbe, 0x39, 0x4a, 0x4c, 0x58, 0xcf],
  [0xd0, 0xef, 0xaa, 0xfb, 0x43, 0x4d, 0x33, 0x85, 0x45, 0xf9, 0x02, 0x7f, 0x50, 0x3c, 0x9f, 0xa8],
  [0x51, 0xa3, 0x40, 0x8f, 0x92, 0x9d, 0x38, 0xf5, 0xbc, 0xb6, 0xda, 0x21, 0x10, 0xff, 0xf3, 0xd2]] ++ [
  [0xcd, 0x0c, 0x13, 0xec, 0x5f, 0x97, 0x44, 0x17, 0xc4, 0xa7, 0x7e, 0x3d, 0x64, 0x5d, 0x19, 0x73],
  [0x60, 0x81, 0x4f, 0xdc, 0x22, 0x2a, 0x90, 0x88, 0x46, 0xee, 0xb8, 0x14, 0xde, 0x5e, 0x0b, 0xdb],
  [0xe0, 0x32, 0x3a, 0x0a, 0x49, 0x06, 0x24, 0x5c, 0xc2, 0xd3, 0xac, 0x62, 0x91, 0x95, 0xe4, 0x79],
  [0xe7, 0xc8, 0x37, 0x6d, 0x8d, 0xd5, 0x4e, 0xa9, 0x6c, 0x56, 0xf4, 0xea, 0x65, 0x7a, 0xae, 0x08],
  [0xba, 0x78, 0x25, 0x2e, 0x1c, 0xa6, 0xb4, 0xc6, 0xe8, 0xdd, 0x74, 0x1f, 0x4b, 0xbd, 0x8b, 0x8a],
  [0x70, 0x3e, 0xb5, 0x66, 0x48, 0x03, 0xf6, 0x0e, 0x61, 0x35, 0x57, 0xb9, 0x86, 0xc1, 0x1d, 0x9e],
  [0xe1, 0xf8, 0x98, 0x11, 0x69, 0xd9, 0x8e, 0x94, 0x9b, 0x1e, 0x87, 0xe9, 0xce, 0x55, 0x28, 0xdf],
  [0x8c, 0xa1, 0x89, 0x0d, 0xbf, 0xe6, 0x42, 0x68, 0x41, 0x99, 0x2d, 0x0f, 0xb0, 0x54, 0xbb, 0x16]
]

/-- `SBOX[v]` for `v = 16*hi + lo` (R702). -/
def sbox (v : Byte) : Byte := (sboxRows.getD (v.toNat / 16) []).getD (v.toNat % 16) 0

/-- `xtime(v)`, multiplication by 2 in GF(2^8) (R701). -/
def xtime (v : Byte) : Byte := (v <<< 1) ^^^ (if v.msb then 0x1B else 0)

/-- `3·v = xtime(v) xor v` (R701). -/
def times3 (v : Byte) : Byte := xtime v ^^^ v

/-- SubBytes (R703). -/
def subBytes (s : ByteString) : ByteString := s.map sbox

/-- ShiftRows: `s'[r + 4c] = s[r + 4((c + r) mod 4)]` (R704). -/
def shiftRows (s : ByteString) : ByteString :=
  [byteAt s 0, byteAt s 5, byteAt s 10, byteAt s 15,
   byteAt s 4, byteAt s 9, byteAt s 14, byteAt s 3,
   byteAt s 8, byteAt s 13, byteAt s 2, byteAt s 7,
   byteAt s 12, byteAt s 1, byteAt s 6, byteAt s 11]

/-- One column of MixColumns (R705). -/
def mixColumn (a0 a1 a2 a3 : Byte) : ByteString :=
  [xtime a0 ^^^ times3 a1 ^^^ a2 ^^^ a3,
   a0 ^^^ xtime a1 ^^^ times3 a2 ^^^ a3,
   a0 ^^^ a1 ^^^ xtime a2 ^^^ times3 a3,
   times3 a0 ^^^ a1 ^^^ a2 ^^^ xtime a3]

/-- MixColumns, column by column (R701, R705). -/
def mixColumns : ByteString → ByteString
  | a0 :: a1 :: a2 :: a3 :: rest => mixColumn a0 a1 a2 a3 ++ mixColumns rest
  | _ => []

/-- `RCON[i]`, `i = 1..10` (R707). -/
def rcon (i : Nat) : Byte := [0x01, 0x02, 0x04, 0x08, 0x10, 0x20, 0x40, 0x80, 0x1B, 0x36].getD (i - 1) 0

/-- The `t` of R707 for the word before: RotWord, SubWord and RCON when `i mod 4 = 0`. -/
def keyScheduleCore (i : Nat) (t : ByteString) : ByteString :=
  if i % 4 = 0 then
    [sbox (byteAt t 1) ^^^ rcon (i / 4), sbox (byteAt t 2), sbox (byteAt t 3), sbox (byteAt t 0)]
  else t

/-- The words from `w[i]` on, `k` of them, on top of the words before, newest first (R707). -/
def keyExtend : Nat → Nat → List ByteString → List ByteString
  | 0, _, ws => ws
  | k + 1, i, ws => keyExtend k (i + 1) (xorBytes (ws.getD 3 []) (keyScheduleCore i (ws.getD 0 [])) :: ws)

/-- The key expansion `w[0..43]` of a 16-byte key (R707). -/
def expandKey (key : ByteString) : List ByteString := (keyExtend 40 4 (blocksOf 4 key).reverse).reverse

/-- `RK_i = w[4i] || w[4i+1] || w[4i+2] || w[4i+3]` (R706). -/
def roundKey (ws : List ByteString) (i : Nat) : ByteString := ((ws.drop (4 * i)).take 4).flatten

/-- Rounds 1 to 9 (R708). -/
def aesRound (ws : List ByteString) (s : ByteString) (round : Nat) : ByteString :=
  xorBytes (mixColumns (shiftRows (subBytes s))) (roundKey ws round)

/-- The cipher on expanded key words (R708). -/
def aesWith (ws : List ByteString) (input : ByteString) : ByteString :=
  let s := [1, 2, 3, 4, 5, 6, 7, 8, 9].foldl (aesRound ws) (xorBytes input (roundKey ws 0))
  xorBytes (shiftRows (subBytes s)) (roundKey ws 10)

/-- `AES(K, in)`, the forward cipher (R708). -/
def aes (key input : ByteString) : ByteString := aesWith (expandKey key) input

end Sys2Proof.Machine
end

