-- ==== Sys2Proof/Machine/Ccm.lean ====
section
/-! DEFINITION. AES-CCM with a 4-byte tag and a 12-byte nonce (R709 to R717 of 43_aead.md). -/

namespace Sys2Proof.Machine

/-- The flags byte of `B0`: 0x4A with associated data, 0x0A without (R711). -/
def ccmFlags (aad : ByteString) : Byte :=
  BitVec.ofNat 8
    (64 * (if 0 < aad.length then 1 else 0) + 8 * ((Config.tagBytes - 2) / 2) + (Config.ccmQ - 1))

/-- `B0 = flags || N || BE_3(|P|)` (R711). -/
def ccmB0 (nonce aad : ByteString) (payloadLength : Nat) : ByteString :=
  ccmFlags aad :: nonce ++ beBytes Config.ccmQ payloadLength

/-- The associated-data blocks: none for an empty string, else `BE_2(|A|) || A` zero-padded (R712). -/
def ccmAadBlocks (aad : ByteString) : List ByteString :=
  if aad.length = 0 then [] else blocksOf 16 (zeroPad 16 (beBytes 2 aad.length ++ aad))

/-- The payload blocks (R713). -/
def ccmPayloadBlocks (p : ByteString) : List ByteString := blocksOf 16 (zeroPad 16 p)

/-- The CBC-MAC value `T = MSB_4(Y_r)` over `B0`, the associated data and the payload (R714). -/
def ccmMac (key nonce aad p : ByteString) : ByteString :=
  ((ccmB0 nonce aad p.length :: (ccmAadBlocks aad ++ ccmPayloadBlocks p)).foldl
    (fun y x => aes key (xorBytes y x)) (zeros 16)).take Config.tagBytes

/-- `Ctr_j = 02 || N || BE_3(j)` (R715). -/
def ccmCounter (nonce : ByteString) (j : Nat) : ByteString :=
  BitVec.ofNat 8 (Config.ccmQ - 1) :: nonce ++ beBytes Config.ccmQ j

/-- `S_j = AES(K, Ctr_j)` (R715). -/
def ccmStreamBlock (key nonce : ByteString) (j : Nat) : ByteString := aes key (ccmCounter nonce j)

/-- `S_j || S_(j+1) || ...`, `k` blocks (R715). -/
def ccmStreamFrom (key nonce : ByteString) : Nat → Nat → ByteString
  | _, 0 => []
  | j, k + 1 => ccmStreamBlock key nonce j ++ ccmStreamFrom key nonce (j + 1) k

/-- The key stream `KS = MSB_n(S_1 || S_2 || ...)` (R715). -/
def ccmKeyStream (key nonce : ByteString) (n : Nat) : ByteString :=
  (ccmStreamFrom key nonce 1 ((n + 15) / 16)).take n

/-- `MSB_4(S_0)`, which encrypts the tag (R716). -/
def ccmTagMask (key nonce : ByteString) : ByteString := (ccmStreamBlock key nonce 0).take Config.tagBytes

/-- `CCM_Encrypt(K, N, A, P) = (P ^ KS) || (T ^ MSB_4(S_0))` (R716). -/
def ccmEncrypt (key nonce aad p : ByteString) : ByteString :=
  xorBytes p (ccmKeyStream key nonce p.length) ++ xorBytes (ccmMac key nonce aad p) (ccmTagMask key nonce)

/-- `CCM_Decrypt(K, N, A, C)`: the payload, or `none` for INVALID (R717). -/
def ccmDecrypt (key nonce aad c : ByteString) : Option ByteString :=
  if c.length < Config.tagBytes then none
  else
    let n := c.length - Config.tagBytes
    let p := xorBytes (c.take n) (ccmKeyStream key nonce n)
    if xorBytes (c.drop n) (ccmTagMask key nonce) = ccmMac key nonce aad p then some p else none

end Sys2Proof.Machine
end

