-- ==== Sys2Proof/Machine/Operands.lean ====
section
/-! DEFINITION. The operands of the commands, all implicit (R311 of 30_encoding.md), and the length checks that come
before each command's own checks (the table of R408, 40_command_model.md). -/

namespace Sys2Proof.Machine

/-- AAD[0..AAD_LEN) (R110). -/
def State.aadOperand (s : State) : ByteString := s.bufTake .aad s.aadLen.toNat

/-- IN[0..IN_LEN) (R111). -/
def State.inOperand (s : State) : ByteString := s.bufTake .input s.inLen.toNat

/-- SALT[0..SALT_LEN) (R113). -/
def State.saltOperand (s : State) : ByteString := s.bufTake .salt s.saltLen.toNat

/-- IKM[0..IKM_LEN) (R114). -/
def State.ikmOperand (s : State) : ByteString := s.bufTake .ikm s.ikmLen.toNat

/-- PRIV[0..PRIV_LEN) (R115). -/
def State.privOperand (s : State) : ByteString := s.bufTake .priv s.privLen.toNat

/-- The bytes `iv0 iv1 iv2 iv3` of IV, `iv_i = IV[8i+7:8i]` (R123). -/
def State.ivBytes (s : State) : ByteString := leBytes Config.ivBytes s.iv.toNat

/-- The bytes `p0 p1 p2 p3` of PAD, `p_i = PAD[8i+7:8i]` (R122). -/
def State.padBytes (s : State) : ByteString := leBytes 4 s.pad.toNat

/-- The LEN_ERR conditions, row by row of R408's table. -/
def State.lengthError (s : State) : Instr → Bool
  | .ccmEnc => Config.aadMax < s.aadLen.toNat || Config.bufBytes - Config.tagBytes < s.inLen.toNat
  | .ccmDec => Config.aadMax < s.aadLen.toNat || Config.bufBytes < s.inLen.toNat
  | .devidEnc => Config.bufBytes - Config.tagBytes < s.inLen.toNat
  | .frameEnc _ => s.inLen.toNat < 3 || Config.bufBytes - 12 < s.inLen.toNat
  | .frameDec => Config.bufBytes < s.inLen.toNat
  | .crc16 => Config.bufBytes < s.inLen.toNat
  | .hmac => Config.saltMax < s.saltLen.toNat || Config.bufBytes < s.inLen.toNat
  | .hkdf saltp ikmsrc => (saltp && Config.saltMax < s.saltLen.toNat) || (!ikmsrc && Config.ikmMax < s.ikmLen.toNat)
  | .ecImportPriv => s.privLen.toNat == 0 || Config.privMax < s.privLen.toNat
  | .nop | .zeroize | .ecKeygen | .ecExportPriv | .ecImportPub | .ecAgree => false

end Sys2Proof.Machine
end

