-- ==== Sys2Proof/Machine/Aead.lean ====
section
/-! DEFINITION. The AEAD unit: CCM_ENC, CCM_DEC and DEVID_ENC (R719 to R722 of 43_aead.md). -/

namespace Sys2Proof.Machine

/-- `DEVID_NONCE`, the bytes 16..27 (R722). -/
def devidNonce : ByteString := [0x10, 0x11, 0x12, 0x13, 0x14, 0x15, 0x16, 0x17, 0x18, 0x19, 0x1A, 0x1B]

/-- `DEVID_AAD`, "devID" (R722). -/
def devidAad : ByteString := [0x64, 0x65, 0x76, 0x49, 0x44]

/-- CCM_ENC (R719). -/
def execCcmEnc (s : State) : Host.Outcome State Fault Refusal :=
  .next <|
    if s.lengthError .ccmEnc then s.failOut (opcode .ccmEnc) .lenErr
    else s.succeedOut (opcode .ccmEnc) (ccmEncrypt (s.buf .key) (s.buf .nonce) s.aadOperand s.inOperand)

/-- CCM_DEC's completion for CCM_Decrypt's answer, `none` for INVALID: any failure is the one AUTH_FAIL (R718,
R720). -/
def State.ccmDecWith (s : State) : Option ByteString → State
  | none => s.failOut (opcode .ccmDec) .authFail
  | some p => s.succeedOut (opcode .ccmDec) p

/-- CCM_DEC (R720). -/
def execCcmDec (s : State) : Host.Outcome State Fault Refusal :=
  .next <|
    if s.lengthError .ccmDec then s.failOut (opcode .ccmDec) .lenErr
    else s.ccmDecWith (ccmDecrypt (s.buf .key) (s.buf .nonce) s.aadOperand s.inOperand)

/-- DEVID_ENC (R721): CCM encryption with the fixed nonce and associated data (R722). -/
def execDevidEnc (s : State) : Host.Outcome State Fault Refusal :=
  .next <|
    if s.lengthError .devidEnc then s.failOut (opcode .devidEnc) .lenErr
    else s.succeedOut (opcode .devidEnc) (ccmEncrypt (s.buf .key) devidNonce devidAad s.inOperand)

end Sys2Proof.Machine
end

