-- ==== Sys2Proof/Machine/P256.lean ====
section
/-! DEFINITION. The curve P-256, its arithmetic and its encodings (R501 to R509, R516 of 41_ecc.md). -/

namespace Sys2Proof.Machine

/-! ### Curve parameters (R501) -/

/-- The field prime `p`. -/
def fieldPrime : Nat := 0xFFFFFFFF00000001000000000000000000000000FFFFFFFFFFFFFFFFFFFFFFFF
/-- `a = p - 3`. -/
def curveA : Nat := fieldPrime - 3
/-- `b`. -/
def curveB : Nat := 0x5AC635D8AA3A93E7B3EBBD55769886BC651D06B0CC53B0F63BCE3C3E27D2604B
/-- `Gx`. -/
def baseX : Nat := 0x6B17D1F2E12C4247F8BCE6E563A440F277037D812DEB33A0F4A13945D898C296
/-- `Gy`. -/
def baseY : Nat := 0x4FE342E2FE1A7F9B8EE7EB4A7C0F9E162BCE33576B315ECECBB6406837BF51F5
/-- The group order `n`. -/
def groupOrder : Nat := 0xFFFFFFFF00000000FFFFFFFFFFFFFFFFBCE6FAADA7179E84F3B9CAC2FC632551

/-! ### Field arithmetic (R502) -/

/-- Addition modulo `p`. -/
def fAdd (u v : Nat) : Nat := (u + v) % fieldPrime
/-- Subtraction modulo `p`. -/
def fSub (u v : Nat) : Nat := (u + (fieldPrime - v % fieldPrime)) % fieldPrime
/-- Multiplication modulo `p`. -/
def fMul (u v : Nat) : Nat := (u * v) % fieldPrime

/-- `z^e mod p` for `e < 2^fuel`, by squaring. -/
def fPow : Nat → Nat → Nat → Nat
  | 0, _, _ => 1
  | fuel + 1, z, e =>
    if e % 2 = 1 then fMul z (fPow fuel (fMul z z) (e / 2)) else fPow fuel (fMul z z) (e / 2)

/-- `inv(z) = z^(p-2) mod p` (R502). -/
def fInv (z : Nat) : Nat := fPow 256 z (fieldPrime - 2)
/-- `u / z = u * inv(z) mod p` (R502). -/
def fDiv (u z : Nat) : Nat := fMul u (fInv z)

/-! ### Points and the group law (R503 to R505) -/

/-- A point: `O`, or `(x, y)` (R503). -/
inductive Point where
  | infinity
  | affine (x y : Nat)
  deriving DecidableEq, Repr

/-- `y^2 = x^3 + a*x + b (mod p)` (R503). -/
def onCurve (x y : Nat) : Bool := fMul y y == fAdd (fAdd (fMul x (fMul x x)) (fMul curveA x)) curveB

/-- The generator `G` (R501). -/
def basePoint : Point := .affine baseX baseY

/-- The third point of the line with slope `lam` through two points, reflected (R504). -/
def chordPoint (lam x1 y1 x2 : Nat) : Point :=
  let x3 := fSub (fSub (fMul lam lam) x1) x2
  .affine x3 (fSub (fMul lam (fSub x1 x3)) y1)

/-- The group law `P1 + P2` (R504). -/
def pointAdd : Point → Point → Point
  | .infinity, q => q
  | .affine x1 y1, .infinity => .affine x1 y1
  | .affine x1 y1, .affine x2 y2 =>
    if x1 = x2 ∧ fAdd y1 y2 = 0 then .infinity
    else if x1 = x2 ∧ y1 = y2 then
      chordPoint (fDiv (fAdd (fMul 3 (fMul x1 x1)) curveA) (fMul 2 y1)) x1 y1 x2
    else chordPoint (fDiv (fSub y2 y1) (fSub x2 x1)) x1 y1 x2

/-- Left-to-right double-and-add over the bits of `k < 2^fuel` (R505). -/
def pointMulBits : Nat → Nat → Point → Point
  | 0, _, _ => .infinity
  | fuel + 1, k, q =>
    if k = 0 then .infinity
    else
      let half := pointMulBits fuel (k / 2) q
      let twice := pointAdd half half
      if k % 2 = 1 then pointAdd twice q else twice

/-- `k·P` for `k < 2^256`, the widths that occur (R505; log 11). -/
def pointMul (k : Nat) (q : Point) : Point := pointMulBits 256 k q

/-! ### Encodings (R506 to R509, R516) -/

/-- RawPublicKey: `BE_32(x) || BE_32(y)`; `O` has no raw encoding, so its bytes are free (R506; log 10). -/
def rawPublicKey : Point → ByteString
  | .affine x y => beBytes 32 x ++ beBytes 32 y
  | .infinity => (List.range Config.rawPubBytes).map Config.infinityByte

/-- The `x` of a 64-byte RawPublicKey (R506). -/
def rawX (s : ByteString) : Nat := intBE (slice s 0 32)

/-- The `y` of a 64-byte RawPublicKey (R506). -/
def rawY (s : ByteString) : Nat := intBE (slice s 32 64)

/-- The point a RawPublicKey decodes to (R506). -/
def decodePublicKey (s : ByteString) : Point := .affine (rawX s) (rawY s)

/-- `ValidPub(s)`: both coordinates below `p`, and the point on the curve (R507). -/
def validPub (s : ByteString) : Bool :=
  decide (rawX s < fieldPrime) && decide (rawY s < fieldPrime) && onCurve (rawX s) (rawY s)

/-- `1 <= d <= n-1`, the range of a private scalar (R135, R512). -/
def validScalar (d : Nat) : Bool := decide (1 ≤ d) && decide (d < groupOrder)

/-- `minBE(d)` for `1 <= d`: `ceil(bitlength(d)/8)` bytes (R509). -/
def minBE (d : Nat) : ByteString := beBytes ((Nat.log2 d + 1 + 7) / 8) d

/-- `SharedSecret(S) = BE_32(xS)` for `S = (xS, yS)`, leading zero bytes kept (R516). -/
def sharedSecret (xS : Nat) : ByteString := beBytes Config.sharedBytes xS

/-- `ENTROPY.scalar()`: the source's answer brought into `1..n-1`, each of which some answer gives (R923; log 1). -/
def scalarAnswer (r : Nat) : Nat := 1 + r % (groupOrder - 1)

end Sys2Proof.Machine
end

