-- ==== Sys2Proof/Machine/Ecc.lean ====
section
/-! DEFINITION. The ECC unit's commands (R511 to R515 of 41_ecc.md). -/

namespace Sys2Proof.Machine

/-- The success writes of EC_KEYGEN and EC_IMPORT_PRIV: `D <- d`, `D_VALID <- 1`, `PUB <- RawPublicKey(d·G)`
(R511, R512). -/
def State.setKeyPair (s : State) (d : Nat) : State :=
  { s.fillBuf .pub (rawPublicKey (pointMul d basePoint)) with d := BitVec.ofNat 256 d, dValid := true }

/-- Their failure writes: `D <- 0`, `D_VALID <- 0`, `PUB <- 0^64` (R511, R512). -/
def State.dropKeyPair (s : State) : State := { s.fillBuf .pub [] with d := 0, dValid := false }

/-- `ENTROPY.scalar()`: a scalar in `1..n-1`, or FAIL (R511, R923). -/
def State.entropyScalar (s : State) : Option Nat := s.entropyAnswer.map scalarAnswer

/-- EC_KEYGEN's completion for an answer of the entropy source (R511). -/
def State.keygenWith (s : State) : Option Nat → State
  | none => s.dropKeyPair.finish (opcode .ecKeygen) .entropyErr
  | some d => (s.setKeyPair d).finish (opcode .ecKeygen) .ok

/-- EC_KEYGEN (R511). -/
def execEcKeygen (s : State) : Host.Outcome State Fault Refusal := .next (s.afterDraw.keygenWith s.entropyScalar)

/-- EC_IMPORT_PRIV (R512): the scalar is `int_BE(PRIV[0..PRIV_LEN))` (R508). -/
def execEcImportPriv (s : State) : Host.Outcome State Fault Refusal :=
  .next <|
    if s.lengthError .ecImportPriv then s.dropKeyPair.finish (opcode .ecImportPriv) .lenErr
    else if validScalar (intBE s.privOperand) then
      (s.setKeyPair (intBE s.privOperand)).finish (opcode .ecImportPriv) .ok
    else s.dropKeyPair.finish (opcode .ecImportPriv) .invalidKey

/-- The success writes of EC_EXPORT_PRIV: `PRIV <- e || 0^(36-|e|)`, `PRIV_LEN <- |e|` with `e = minBE(D)` (R513). -/
def State.exportKey (s : State) : State :=
  { s.fillBuf .priv (minBE s.d.toNat) with privLen := BitVec.ofNat 16 (minBE s.d.toNat).length }

/-- EC_EXPORT_PRIV (R513); a failure writes nothing of its own. -/
def execEcExportPriv (s : State) : Host.Outcome State Fault Refusal :=
  .next <|
    if s.dValid then s.exportKey.finish (opcode .ecExportPriv) .ok
    else s.finish (opcode .ecExportPriv) .invalidKey

/-- EC_IMPORT_PUB (R514): `PEER_VALID` tells whether PEER is a valid public key; PEER itself is unchanged. -/
def execEcImportPub (s : State) : Host.Outcome State Fault Refusal :=
  .next <|
    if validPub (s.buf .peer) then ({ s with peerValid := true }).finish (opcode .ecImportPub) .ok
    else ({ s with peerValid := false }).finish (opcode .ecImportPub) .invalidKey

/-- The success writes of EC_AGREE: `SHARED <- BE_32(xS)`, `SHARED_VALID <- 1` (R515, R516). -/
def State.setShared (s : State) (xS : Nat) : State :=
  { s.fillBuf .shared (sharedSecret xS) with sharedValid := true }

/-- The failure of EC_AGREE: `SHARED <- 0^32`, `SHARED_VALID <- 0`, KEY_AGREEMENT (R515). -/
def State.dropShared (s : State) : State := { s.fillBuf .shared [] with sharedValid := false }

/-- EC_AGREE's completion for the point `S = D·Q` (R515 (4)). -/
def State.agreeWith (s : State) : Point → State
  | .infinity => s.dropShared.finish (opcode .ecAgree) .keyAgreement
  | .affine xS _ => (s.setShared xS).finish (opcode .ecAgree) .ok

/-- EC_AGREE (R515); PEER_VALID is not consulted. -/
def execEcAgree (s : State) : Host.Outcome State Fault Refusal :=
  .next <|
    if s.dValid = true ∧ validPub (s.buf .peer) = true then
      s.agreeWith (pointMul s.d.toNat (decodePublicKey (s.buf .peer)))
    else s.dropShared.finish (opcode .ecAgree) .keyAgreement

end Sys2Proof.Machine
end

