-- ==== Sys2Proof/Machine/Engine.lean ====
section
/-! DEFINITION. The engine commands NOP and ZEROIZE (R416, R417 of 40_command_model.md). -/

namespace Sys2Proof.Machine

/-- NOP: no effect but the completion's (R416). -/
def execNop (s : State) : Host.Outcome State Fault Refusal := .next (s.finish (opcode .nop) .ok)

/-- Every buffer filled with zeros (R417's first line). -/
def State.clearBuffers (s : State) : State :=
  { s with mem := Buffer.all.foldl (fun m b => Memory.clear m b.base b.size) s.mem }

/-- ZEROIZE's writes: the buffers, D and the valid bits, and the 13 registers R417 lists; CTRL and IRQ_EN stay. -/
def State.zeroized (s : State) : State :=
  { s.clearBuffers with
    d := 0, dValid := false, peerValid := false, sharedValid := false,
    aadLen := 0, inLen := 0, outLen := 0, saltLen := 0, ikmLen := 0, privLen := 0, counter := 0, rxCtrHi := 0,
    rxCounter := 0, rxSize := 0, crcResult := 0, pad := 0, iv := 0 }

/-- ZEROIZE (R417); never fails. -/
def execZeroize (s : State) : Host.Outcome State Fault Refusal := .next (s.zeroized.finish (opcode .zeroize) .ok)

end Sys2Proof.Machine
end

