-- ==== Sys2Proof/Machine/Frame.lean ====
section
/-! DEFINITION. The frame unit and the CRC-16 generator (R801 to R816 of 44_frame.md). -/

namespace Sys2Proof.Machine

/-- `CRC16_FN(b)` as the two bytes `c0 c1` in the trailer's order (R801, R804). -/
def crcTrailer (b : ByteString) : ByteString := [(Config.crc16Fn b).1, (Config.crc16Fn b).2]

/-- `NONCE_F(c) = iv || 00 00 00 00 || BE_4(c)` (R806). -/
def frameNonce (iv : ByteString) (c : Nat) : ByteString := iv ++ zeros 4 ++ beBytes 4 c

/-- The frame without its CRC: `55 AB || size || ctrLo || ctrHi || CT` (R804, R807). -/
def frameBody (size : Byte) (c : Nat) (ct : ByteString) : ByteString :=
  0x55 :: 0xAB :: size :: leBytes 2 c ++ ct

/-- A body with its trailer, the CRC over everything after the 2-byte header (R804). -/
def frameSeal (body : ByteString) : ByteString := body ++ crcTrailer (body.drop 2)

/-- FRAME_ENC's result for a message, a counter and 4 pad bytes (R809, steps 1 to 4). -/
def encodeFrame (key iv m : ByteString) (c : Nat) (pad : ByteString) : ByteString :=
  frameSeal (frameBody (byteAt m 2) c (ccmEncrypt key (frameNonce iv c) [] (m.drop 3 ++ pad)))

/-- The pad bytes: PAD when PADSRC = 1, else 4 entropy bytes or FAIL (R808). -/
def State.framePad (s : State) (padsrc : Bool) : Option ByteString :=
  if padsrc then some s.padBytes else s.entropyBytes 4

/-- The state after the pad is taken: only PADSRC = 0 makes a request to the entropy source (R808). -/
def State.afterPad (s : State) (padsrc : Bool) : State := if padsrc then s else s.afterDraw

/-- The counter is used up: CTRL.AUTOINC = 1 and COUNTER = 0xFFFFFFFF (R810). -/
def State.counterExhausted (s : State) : Bool := s.autoInc && s.counter == 0xFFFFFFFF

/-- COUNTER after a successful FRAME_ENC: `c + 1` when CTRL.AUTOINC = 1 (R810). -/
def State.bumpCounter (s : State) : State := if s.autoInc then { s with counter := s.counter + 1 } else s

/-- FRAME_ENC's completion once the pad bytes are known, `none` for FAIL (R809). -/
def State.frameEncWith (s : State) (padsrc : Bool) : Option ByteString → State
  | none => s.failOut (opcode (.frameEnc padsrc)) .entropyErr
  | some pad =>
    s.bumpCounter.succeedOut (opcode (.frameEnc padsrc))
      (encodeFrame (s.buf .key) s.ivBytes s.inOperand s.counter.toNat pad)

/-- FRAME_ENC (R809), its checks in the order LEN_ERR, CTR_EXHAUSTED, ENTROPY_ERR (R914). -/
def execFrameEnc (padsrc : Bool) (s : State) : Host.Outcome State Fault Refusal :=
  .next <|
    if s.lengthError (.frameEnc padsrc) then s.failOut (opcode (.frameEnc padsrc)) .lenErr
    else if s.counterExhausted then s.failOut (opcode (.frameEnc padsrc)) .ctrExhausted
    else (s.afterPad padsrc).frameEncWith padsrc (s.framePad padsrc)

/-- The receive counter `RX_CTR_HI * 65536 + F[4] * 256 + F[3]` (R811, R812). -/
def State.receiveCounter (s : State) (f : ByteString) : Nat :=
  s.rxCtrHi.toNat * 65536 + (byteAt f 4).toNat * 256 + (byteAt f 3).toNat

/-- The trailer does not match: CTRL.CRCCHK = 1 and `CRC16_FN(F[2..L-2)) != F[L-2..L)` (R811, R813). -/
def State.crcMismatch (s : State) (f : ByteString) : Bool :=
  s.crcChk && crcTrailer (slice f 2 (f.length - 2)) != slice f (f.length - 2) f.length

/-- FRAME_DEC's result: header and size, then the payload without the 4 pad bytes (R811, R814). -/
def decodedFrame (f p : ByteString) : ByteString := f.take 3 ++ p.take (p.length - 4)

/-- FRAME_DEC's completion for CCM_Decrypt's answer, `none` for INVALID (R811). -/
def State.frameDecWith (s : State) (f : ByteString) : Option ByteString → State
  | none => s.failOut (opcode .frameDec) .authFail
  | some p =>
    ({ s with rxSize := byteAt f 2, rxCounter := BitVec.ofNat 32 (s.receiveCounter f) }).succeedOut
      (opcode .frameDec) (decodedFrame f p)

/-- FRAME_DEC (R811), its checks in the order LEN_ERR, FRAME_ERR, FRAME_ERR, CRC_ERR, AUTH_FAIL (R914). -/
def execFrameDec (s : State) : Host.Outcome State Fault Refusal :=
  let f := s.inOperand
  .next <|
    if s.lengthError .frameDec then s.failOut (opcode .frameDec) .lenErr
    else if s.inLen.toNat < Config.frameMin then s.failOut (opcode .frameDec) .frameErr
    else if byteAt f 0 ≠ 0x55 ∨ byteAt f 1 ≠ 0xAB then s.failOut (opcode .frameDec) .frameErr
    else if s.crcMismatch f then s.failOut (opcode .frameDec) .crcErr
    else
      s.frameDecWith f
        (ccmDecrypt (s.buf .key) (frameNonce s.ivBytes (s.receiveCounter f)) [] (slice f 5 (f.length - 2)))

/-- CRC16 (R803): `CRC_RESULT <- c0 + 256*c1`; LEN_ERR sets it to 0. Not an OUT writer. -/
def execCrc16 (s : State) : Host.Outcome State Fault Refusal :=
  .next <|
    if s.lengthError .crc16 then ({ s with crcResult := 0 }).finish (opcode .crc16) .lenErr
    else
      ({ s with crcResult := BitVec.ofNat 16 (intLE (crcTrailer s.inOperand)) }).finish (opcode .crc16) .ok

end Sys2Proof.Machine
end

