-- ==== Sys2Proof/Machine/Sha256.lean ====
section
/-! DEFINITION. SHA-256 (R601 to R607) and HMAC-SHA256 (R608), of 42_kdf.md. -/

namespace Sys2Proof.Machine

/-- The hash value `H[0..7]`, and the working variables `a` to `h` (R602, R606). -/
structure HashState where
  a : Word
  b : Word
  c : Word
  d : Word
  e : Word
  f : Word
  g : Word
  h : Word
  deriving DecidableEq, Repr

/-- `H0` (R602). -/
def sha256Init : HashState :=
  ⟨0x6a09e667, 0xbb67ae85, 0x3c6ef372, 0xa54ff53a, 0x510e527f, 0x9b05688c, 0x1f83d9ab, 0x5be0cd19⟩

/-- `K[0..63]`, row by row (R603). -/
def sha256K : List Word :=
  [0x428a2f98, 0x71374491, 0xb5c0fbcf, 0xe9b5dba5, 0x3956c25b, 0x59f111f1, 0x923f82a4, 0xab1c5ed5] ++
  [0xd807aa98, 0x12835b01, 0x243185be, 0x550c7dc3, 0x72be5d74, 0x80deb1fe, 0x9bdc06a7, 0xc19bf174] ++
  [0xe49b69c1, 0xefbe4786, 0x0fc19dc6, 0x240ca1cc, 0x2de92c6f, 0x4a7484aa, 0x5cb0a9dc, 0x76f988da] ++
  [0x983e5152, 0xa831c66d, 0xb00327c8, 0xbf597fc7, 0xc6e00bf3, 0xd5a79147, 0x06ca6351, 0x14292967] ++
  [0x27b70a85, 0x2e1b2138, 0x4d2c6dfc, 0x53380d13, 0x650a7354, 0x766a0abb, 0x81c2c92e, 0x92722c85] ++
  [0xa2bfe8a1, 0xa81a664b, 0xc24b8b70, 0xc76c51a3, 0xd192e819, 0xd6990624, 0xf40e3585, 0x106aa070] ++
  [0x19a4c116, 0x1e376c08, 0x2748774c, 0x34b0bcb5, 0x391c0cb3, 0x4ed8aa4a, 0x5b9cca4f, 0x682e6ff3] ++
  [0x748f82ee, 0x78a5636f, 0x84c87814, 0x8cc70208, 0x90befffa, 0xa4506ceb, 0xbef9a3f7, 0xc67178f2]

/-- `Ch` (R605). -/
def shaCh (e f g : Word) : Word := (e &&& f) ^^^ (~~~e &&& g)
/-- `Maj` (R605). -/
def shaMaj (a b c : Word) : Word := (a &&& b) ^^^ (a &&& c) ^^^ (b &&& c)
/-- `Sig0` (R605). -/
def shaBigSig0 (a : Word) : Word := a.rotateRight 2 ^^^ a.rotateRight 13 ^^^ a.rotateRight 22
/-- `Sig1` (R605). -/
def shaBigSig1 (e : Word) : Word := e.rotateRight 6 ^^^ e.rotateRight 11 ^^^ e.rotateRight 25
/-- `sig0` (R605). -/
def shaSmallSig0 (x : Word) : Word := x.rotateRight 7 ^^^ x.rotateRight 18 ^^^ (x >>> 3)
/-- `sig1` (R605). -/
def shaSmallSig1 (x : Word) : Word := x.rotateRight 17 ^^^ x.rotateRight 19 ^^^ (x >>> 10)

/-- `pad(M) = M || 80 || 0^z || BE_8(8*|M|)` with the least `z` that makes a multiple of 64 (R604). -/
def sha256Pad (m : ByteString) : ByteString :=
  m ++ [0x80] ++ zeros ((64 - (m.length + 9) % 64) % 64) ++ beBytes 8 (8 * m.length)

/-- A word read from 4 bytes, big-endian (R601). -/
def wordBE (s : ByteString) : Word := BitVec.ofNat 32 (intBE s)

/-- `W[t]` for `t = 16..63` on top of the words before it, newest first (R606). -/
def sha256Extend : Nat → List Word → List Word
  | 0, ws => ws
  | k + 1, ws =>
    sha256Extend k
      ((shaSmallSig1 (ws.getD 1 0) + ws.getD 6 0 + shaSmallSig0 (ws.getD 14 0) + ws.getD 15 0) :: ws)

/-- The message schedule `W[0..63]` of a 64-byte block (R606). -/
def sha256Schedule (block : ByteString) : List Word :=
  (sha256Extend 48 ((blocksOf 4 block).map wordBE).reverse).reverse

/-- One round with `K[t]` and `W[t]` (R606). -/
def sha256Round (s : HashState) (kw : Word × Word) : HashState :=
  let t1 := s.h + shaBigSig1 s.e + shaCh s.e s.f s.g + kw.1 + kw.2
  let t2 := shaBigSig0 s.a + shaMaj s.a s.b s.c
  ⟨t1 + t2, s.a, s.b, s.c, s.d + t1, s.e, s.f, s.g⟩

/-- `H[j] <- H[j] + (a, ..., h)[j]` (R606). -/
def HashState.plus (x y : HashState) : HashState :=
  ⟨x.a + y.a, x.b + y.b, x.c + y.c, x.d + y.d, x.e + y.e, x.f + y.f, x.g + y.g, x.h + y.h⟩

/-- The compression of one block into the hash value (R606). -/
def sha256Block (hash : HashState) (block : ByteString) : HashState :=
  hash.plus ((sha256K.zip (sha256Schedule block)).foldl sha256Round hash)

/-- `BE_4(H[0]) || ... || BE_4(H[7])` (R607). -/
def HashState.bytes (x : HashState) : ByteString :=
  beBytes 4 x.a.toNat ++ beBytes 4 x.b.toNat ++ beBytes 4 x.c.toNat ++ beBytes 4 x.d.toNat ++
    beBytes 4 x.e.toNat ++ beBytes 4 x.f.toNat ++ beBytes 4 x.g.toNat ++ beBytes 4 x.h.toNat

/-- `SHA256(M)` (R607). -/
def sha256 (m : ByteString) : ByteString := ((blocksOf 64 (sha256Pad m)).foldl sha256Block sha256Init).bytes

/-- `K0` of HMAC: the key hashed if longer than 64 bytes, then padded with zeros to 64 (R608). -/
def hmacKeyBlock (k : ByteString) : ByteString :=
  let k' := if 64 < k.length then sha256 k else k
  k' ++ zeros (64 - k'.length)

/-- `HMAC(K, m)` (R608). -/
def hmacSha256 (k m : ByteString) : ByteString :=
  let k0 := hmacKeyBlock k
  sha256 (xorBytes k0 (List.replicate 64 0x5C) ++ sha256 (xorBytes k0 (List.replicate 64 0x36) ++ m))

end Sys2Proof.Machine
end

