-- ==== Sys2Proof/Machine/Kdf.lean ====
section
/-! DEFINITION. The KDF unit: HKDF (R609 to R613) and HMAC (R614), of 42_kdf.md. -/

namespace Sys2Proof.Machine

/-- `"mible-login-info"`, used when the salt is present (R612). -/
def loginInfo : ByteString :=
  [0x6d, 0x69, 0x62, 0x6c, 0x65, 0x2d, 0x6c, 0x6f, 0x67, 0x69, 0x6e, 0x2d, 0x69, 0x6e, 0x66, 0x6f]

/-- `"mible-setup-info"`, used when the salt is absent (R612). -/
def setupInfo : ByteString :=
  [0x6d, 0x69, 0x62, 0x6c, 0x65, 0x2d, 0x73, 0x65, 0x74, 0x75, 0x70, 0x2d, 0x69, 0x6e, 0x66, 0x6f]

/-- HKDF-Extract: `PRK = HMAC(salt, IKM)` (R609). -/
def hkdfExtract (salt ikm : ByteString) : ByteString := hmacSha256 salt ikm

/-- HKDF-Expand to 64 bytes: `T1 || T2` (R611). -/
def hkdfExpand (prk info : ByteString) : ByteString :=
  let t1 := hmacSha256 prk (info ++ [0x01])
  t1 ++ hmacSha256 prk (t1 ++ info ++ [0x02])

/-- The input keying material: SHARED[0..32) when IKMSRC = 1, else IKM[0..IKM_LEN) (R613). -/
def State.hkdfIkm (s : State) (ikmsrc : Bool) : ByteString := if ikmsrc then s.buf .shared else s.ikmOperand

/-- The salt: SALT[0..SALT_LEN) when SALTP = 1, else 32 zero bytes (R610, R613). -/
def State.hkdfSalt (s : State) (saltp : Bool) : ByteString := if saltp then s.saltOperand else zeros 32

/-- The info string, by the salt's presence (R612). -/
def hkdfInfo (saltp : Bool) : ByteString := if saltp then loginInfo else setupInfo

/-- The 64 bytes of HKDF's result (R613). -/
def State.hkdfOkm (s : State) (saltp ikmsrc : Bool) : ByteString :=
  hkdfExpand (hkdfExtract (s.hkdfSalt saltp) (s.hkdfIkm ikmsrc)) (hkdfInfo saltp)

/-- HKDF (R613). -/
def execHkdf (saltp ikmsrc : Bool) (s : State) : Host.Outcome State Fault Refusal :=
  .next <|
    if s.lengthError (.hkdf saltp ikmsrc) then s.failOut (opcode (.hkdf saltp ikmsrc)) .lenErr
    else if ikmsrc = true ∧ s.sharedValid = false then s.failOut (opcode (.hkdf saltp ikmsrc)) .invalidKey
    else s.succeedOut (opcode (.hkdf saltp ikmsrc)) (s.hkdfOkm saltp ikmsrc)

/-- HMAC (R614): the key is SALT[0..SALT_LEN), the data IN[0..IN_LEN). -/
def execHmac (s : State) : Host.Outcome State Fault Refusal :=
  .next <|
    if s.lengthError .hmac then s.failOut (opcode .hmac) .lenErr
    else s.succeedOut (opcode .hmac) (hmacSha256 s.saltOperand s.inOperand)

end Sys2Proof.Machine
end

