-- ==== Sys2Proof/Machine/Dispatch.lean ====
section
/-! DEFINITION. The completion step of each legal command (R404): one arm per command, one meaning per arm. -/

namespace Sys2Proof.Machine

def exec (i : Instr) (s : State) : Host.Outcome State Fault Refusal :=
  match i with
  | .nop => Sys2Proof.Machine.execNop s
  | .zeroize => Sys2Proof.Machine.execZeroize s
  | .ecKeygen => Sys2Proof.Machine.execEcKeygen s
  | .ecImportPriv => Sys2Proof.Machine.execEcImportPriv s
  | .ecExportPriv => Sys2Proof.Machine.execEcExportPriv s
  | .ecImportPub => Sys2Proof.Machine.execEcImportPub s
  | .ecAgree => Sys2Proof.Machine.execEcAgree s
  | .hkdf saltp ikmsrc => Sys2Proof.Machine.execHkdf saltp ikmsrc s
  | .hmac => Sys2Proof.Machine.execHmac s
  | .ccmEnc => Sys2Proof.Machine.execCcmEnc s
  | .ccmDec => Sys2Proof.Machine.execCcmDec s
  | .devidEnc => Sys2Proof.Machine.execDevidEnc s
  | .frameEnc padsrc => Sys2Proof.Machine.execFrameEnc padsrc s
  | .frameDec => Sys2Proof.Machine.execFrameDec s
  | .crc16 => Sys2Proof.Machine.execCrc16 s

end Sys2Proof.Machine
end

