-- ==== Sys2Proof/Machine/HostProgram.lean ====
section
/-! DEFINITION. The host program syntax and the expansions of its pseudo-instructions (R313 to R316 of 30_encoding.md). -/

namespace Sys2Proof.Machine

/-- A line of a host program (R313, R315). -/
inductive HostLine where
  /-- `wr LOC, VALUE`, with the location's offset. -/
  | wr (off : Nat) (v : Word)
  /-- `rd LOC`. -/
  | rd (off : Nat)
  /-- `cmd MNEMONIC[.flag[.flag]]`. -/
  | cmd (i : Instr)
  /-- `wait`. -/
  | wait
  /-- `run MNEMONIC[.flags]`. -/
  | run (i : Instr)
  /-- `load BUF, b0 b1 ...`. -/
  | load (b : Buffer) (bytes : ByteString)
  /-- `dump BUF, m`. -/
  | dump (b : Buffer) (m : Nat)
  /-- `expect LOC, VALUE`: a read; the requirement on its value is the program's. -/
  | expect (off : Nat) (v : Word)
  deriving DecidableEq, Repr

/-- `MemWrite(MSC_BASE + off, 4, v)` (R313). -/
def writeAt (off : Nat) (v : Word) : HostOp := .access (.write (Config.mscBase + off) 4 v)

/-- `MemRead(MSC_BASE + off, 4)` (R313). -/
def readAt (off : Nat) : HostOp := .access (.read (Config.mscBase + off) 4)

/-- The writes of `load` from word `k` on: bytes past the end are 0x00 (R315). -/
def loadWords (base : Nat) : Nat → ByteString → List HostOp
  | 0, _ => []
  | k + 1, s => writeAt base (BitVec.ofNat 32 (intLE (s.take 4))) :: loadWords (base + 4) k (s.drop 4)

/-- The reads of `dump` (R315). -/
def dumpWords (base : Nat) : Nat → List HostOp
  | 0 => []
  | k + 1 => readAt base :: dumpWords (base + 4) k

/-- The host operations a line expands to (R313, R315). -/
def HostLine.expand : HostLine → List HostOp
  | .wr off v => [writeAt off v]
  | .rd off => [readAt off]
  | .cmd i => [writeAt Reg.cmd.offset (encode i)]
  | .wait => [.pollIdle]
  | .run i => [writeAt Reg.cmd.offset (encode i), .pollIdle]
  | .load b s => loadWords b.base ((s.length + 3) / 4) s
  | .dump b m => dumpWords b.base ((m + 3) / 4)
  | .expect off _ => [readAt off]

/-- The host operations of a program (R316). -/
def assemble (program : List HostLine) : List HostOp := program.flatMap HostLine.expand

/-- `kind` of R316: `W` or `R`. -/
inductive AccessKind where
  | w | r
  deriving DecidableEq, Repr

/-- An access of the trace as R316 lists it: `(kind, offset, value)`, for accesses inside the window. -/
def BusEvent.triple (e : BusEvent) : Option (AccessKind × Nat × Word) :=
  match e.access with
  | .write addr _ v => (windowOffset addr).map fun off => (.w, off, v)
  | .read addr _ =>
    match e.reply with
    | .readData v | .readError v => (windowOffset addr).map fun off => (.r, off, v)
    | .writeAck | .writeError | .notDecoded => none

end Sys2Proof.Machine
end

