-- ==== Sys2Proof/Machine/Step.lean ====
section
/-! DEFINITION. One step of the machine: one agent moves (R218, R401 to R405 of 40_command_model.md). -/

namespace Sys2Proof.Machine

/-- The engine's step: none while IDLE, the completion of the latched word while BUSY (R402, R404). An illegal word
completes too (R308). -/
def engineMove (s : State) : Host.Outcome State Fault Refusal :=
  match s.latchedWord with
  | none => .next s
  | some w =>
    match decode w with
    | .ok i => exec i s
    | .error _ => .next (s.completeIllegal w)

/-- One step: the next agent of the schedule moves; with nothing scheduled the engine moves if it is BUSY, else the
host (log 4). -/
def step (s : State) : Host.Outcome State Fault Refusal :=
  match s.schedule with
  | [] => if s.busyFlag then engineMove s else .next s.hostMove
  | .engine :: rest => engineMove { s with schedule := rest }
  | .host :: rest => .next ({ s with schedule := rest }).hostMove
  | .platform :: rest => .next ({ s with schedule := rest }).platformReset

/-- The word of the table's bits `w` latched as the command in flight, so that the next step completes it: what a
host's write to CMD while IDLE does (R403), with nothing scheduled before the completion (log 5). -/
def State.withFetchWord (s : State) (nbits w : Nat) : State :=
  { s with fsm := .busy (BitVec.ofNat 32 (w % 2 ^ nbits)), schedule := [] }

end Sys2Proof.Machine
end

