-- ==== Sys2Proof/Safety.lean ====
section
/-! DEFINITION. The terms the statements use: what a completion leaves (R404 to R411), the invariant of the machine's
state (R134 to R138, R911), what the host cannot see (R921), and the end of a run (R1018). -/

namespace Sys2Proof.Machine

/-! ### What a command's completion leaves -/

/-- `t` is `s` with buffer `b` holding `r` and zeros after it; every byte outside `b` reads as before. -/
structure Filled (s t : State) (b : Buffer) (r : ByteString) : Prop where
  bytes : t.buf b = r ++ zeros (b.size - r.length)
  frame : ∀ a, b.holds a = false → Memory.read t.mem a = Memory.read s.mem a

/-- `t` is `s` after a completion of opcode `op` with code `err`: RESULT, IRQ_STAT and FSM as R404 writes them,
every other field but the memory as in `s`. -/
def Ended (s t : State) (op : BitVec 8) (err : ErrCode) : Prop :=
  t = { s with
    mem := t.mem, result := op ++ err.code,
    irqStat := s.irqStat ||| (if err = .ok then 1 else 3), fsm := .idle }

/-- An OUT writer ended with `ok` and the result `r` (R409); `s` already has the command's other writes. -/
structure OutSuccess (s t : State) (op : BitVec 8) (r : ByteString) : Prop where
  fits : r.length ≤ 512
  filled : Filled s t .output r
  ended : Ended { s with outLen := BitVec.ofNat 16 r.length } t op .ok

/-- An OUT writer ended with a failure: OUT is zero, OUT_LEN is 0, nothing else but R404's writes (R410). -/
structure OutFailure (s t : State) (op : BitVec 8) (err : ErrCode) : Prop where
  failed : err ≠ .ok
  filled : Filled s t .output []
  ended : Ended { s with outLen := 0 } t op err

/-- The OUT writers (R409). -/
def outWriter : Instr → Bool
  | .ccmEnc | .ccmDec | .devidEnc | .frameEnc _ | .frameDec | .hmac | .hkdf _ _ => true
  | .nop | .zeroize | .ecKeygen | .ecImportPriv | .ecExportPriv | .ecImportPub | .ecAgree | .crc16 => false

/-- The commands that may ask the entropy source (R413, R923). -/
def drawsEntropy : Instr → Bool
  | .ecKeygen => true
  | .frameEnc padsrc => !padsrc
  | .nop | .zeroize | .ecImportPriv | .ecExportPriv | .ecImportPub | .ecAgree | .hkdf _ _ | .hmac | .ccmEnc
  | .ccmDec | .devidEnc | .frameDec | .crc16 => false

/-! ### Reset and the register map -/

/-- Every register, buffer and hidden state at its reset value, and the interrupt line 0 (R1002). -/
structure AtReset (t : State) : Prop where
  id : t.regRead .id = 0x4D534331
  version : t.regRead .version = 0x00000001
  ctrl : t.regRead .ctrl = 0x00000003
  registers : ∀ r : Reg, r ≠ .id → r ≠ .version → r ≠ .ctrl → t.regRead r = 0
  buffers : ∀ b : Buffer, t.buf b = zeros b.size
  d : t.d = 0
  dValid : t.dValid = false
  peerValid : t.peerValid = false
  sharedValid : t.sharedValid = false
  fsm : t.fsm = .idle
  irq : t.irq = false

/-- The bits of a writable register that hold a value: the "width used" column of R101. -/
def usedBits : Reg → Word
  | .ctrl => 0x00000003
  | .irqEn => 0x00000007
  | .aadLen | .inLen | .saltLen | .ikmLen | .privLen | .rxCtrHi => 0x0000FFFF
  | .counter | .pad | .iv => 0xFFFFFFFF
  | .id | .version | .status | .cmd | .result | .irqStat | .outLen | .rxCounter | .rxSize | .crcResult => 0

/-! ### The invariant -/

/-- What holds at reset and after every step. -/
structure State.Inv (s : State) : Prop where
  /-- The memory is in canonical form. -/
  canonical : Memory.wf s.mem = true
  /-- The memory lists bytes of buffers only (R101). -/
  inBuffers : ∀ c ∈ s.mem, ∃ b : Buffer, b.holds c.1 = true
  /-- "When D_VALID = 1, 1 <= D <= n-1" (R135). -/
  scalarRange : s.dValid = true → validScalar s.d.toNat = true
  /-- PUB is "the RawPublicKey of the key pair in D" (R130). -/
  publicKey : s.dValid = true → s.buf .pub = rawPublicKey (pointMul s.d.toNat basePoint)
  /-- With no valid key, D and PUB are zero (R135, R136, D49). -/
  noKey : s.dValid = false → s.d = 0 ∧ s.buf .pub = zeros 64
  /-- PEER_VALID tells of the bytes PEER holds now (R137, D47). -/
  peerChecked : s.peerValid = true → validPub (s.buf .peer) = true
  /-- With no shared secret, SHARED is zero (R138, R515). -/
  noShared : s.sharedValid = false → s.buf .shared = zeros 32
  /-- OUT_LEN is within OUT (R112, R134). -/
  outLenFits : s.outLen.toNat ≤ 512
  /-- "every byte at index >= OUT_LEN is 0x00" (R134). -/
  outTail : ∀ i, s.outLen.toNat ≤ i → byteAt (s.buf .output) i = 0
  /-- "Codes 0x0A to 0xFF are never reported" (R911). -/
  codes : s.errCode.toNat ≤ 9

/-! ### Who moves -/

/-- The agent the next step moves: the schedule's head, and with nothing scheduled the engine if BUSY, else the host
(R402; log 4). -/
def State.mover (s : State) : Agent :=
  match s.schedule with
  | agent :: _ => agent
  | [] => if s.busyFlag then .engine else .host

/-! ### What the host cannot see -/

/-- Two states alike in everything but `D` and the bytes of KEY, which no host read returns (R921). -/
structure SameButSecrets (s t : State) : Prop where
  fields : { s with mem := [], d := 0 } = { t with mem := [], d := 0 }
  bytes : ∀ a, Buffer.key.holds a = false → Memory.read s.mem a = Memory.read t.mem a

/-! ### The end of a run -/

/-- The host's program is done and no command is in flight (R1018). -/
def State.runEnded (s : State) : Bool := s.hostProgram.isEmpty && !s.busyFlag

/-- What a run's end shows: every register, every readable buffer, the interrupt line, and the trace of the host's
accesses with the values its reads returned (R1018). -/
structure Observation where
  registers : List Word
  buffers : List ByteString
  irq : Bool
  trace : List BusEvent
  deriving DecidableEq, Repr

/-- The observation of a state (R1018). -/
def State.observation (s : State) : Observation where
  registers := Reg.all.map s.regRead
  buffers := (Buffer.all.filter fun b => b.access != .writeOnly).map s.buf
  irq := s.irq
  trace := s.busLog

end Sys2Proof.Machine
end

