-- ==== Sys2Proof/Certificates/Slice0/Obligations.lean ====
section
/-! DEFINITION. The statements for the provers. Each docstring names the rules of spec/ it formalises; log <n> is
notes/assumptions/<n>.md. -/

open Sys2Proof Sys2Proof.Machine

/-! ### Encoding (R301 to R312) -/

/-- R307: the 19 legal words, each with its command. -/
def Obligations.LegalWordsDecodeToTheirCommands : Prop :=
  decode 0x00000000 = .ok .nop ∧ decode 0x00000001 = .ok .zeroize ∧ decode 0x00000010 = .ok .ecKeygen ∧
  decode 0x00000011 = .ok .ecImportPriv ∧ decode 0x00000012 = .ok .ecExportPriv ∧
  decode 0x00000013 = .ok .ecImportPub ∧ decode 0x00000014 = .ok .ecAgree ∧
  decode 0x00000020 = .ok (.hkdf false false) ∧ decode 0x00000120 = .ok (.hkdf true false) ∧
  decode 0x00000220 = .ok (.hkdf false true) ∧ decode 0x00000320 = .ok (.hkdf true true) ∧
  decode 0x00000021 = .ok .hmac ∧ decode 0x00000030 = .ok .ccmEnc ∧ decode 0x00000031 = .ok .ccmDec ∧
  decode 0x00000032 = .ok .devidEnc ∧ decode 0x00000040 = .ok (.frameEnc false) ∧
  decode 0x00000140 = .ok (.frameEnc true) ∧ decode 0x00000041 = .ok .frameDec ∧ decode 0x00000042 = .ok .crc16

/-- Over all 2^32 words: a word decodes to a command exactly if it is that command's encoding, so that decoding
inverts encoding, no bit is dropped, and no word has two commands (R301, R306, R309). -/
def Obligations.DecodeAndEncodeAgree : Prop :=
  ∀ (w : Word) (i : Instr), decode w = .ok i ↔ w = encode i

/-- R308 (a) to (d): the words the decoder refuses are exactly those with an unlisted opcode, a reserved bit, or a
flag its opcode does not have. -/
def Obligations.DecoderAcceptsExactlyTheLegalWords : Prop :=
  ∀ w : Word, (∃ i, decode w = .ok i) ↔ (fieldsOf w).wellFormed = true

/-- R412, R903: an illegal word completes with ILLEGAL_CMD and LAST_OP, and changes nothing else. -/
def Obligations.IllegalWordChangesOnlyTheCompletion : Prop :=
  ∀ (s : State) (w : Word), s.fsm = .busy w → (fieldsOf w).wellFormed = false →
    engineMove s =
      .next { s with
        result := w.extractLsb' 0 8 ++ 0x01#8, irqStat := s.irqStat ||| 3, fsm := .idle }

/-! ### Steps (R401 to R407) -/

/-- R402, R404: when the latched word decodes to a command, the engine's step is that command's meaning. It is `step`
where the schedule names the engine and, by the model's default order (log 4), where nothing is scheduled. -/
def Obligations.StepRunsTheDecodedInstruction : Prop :=
  ∀ (s : State) (w : Word) (i : Instr), s.fsm = .busy w → decode w = .ok i →
    engineMove s = exec i s ∧ (s.schedule = [] → step s = exec i s) ∧
    ∀ rest, s.schedule = .engine :: rest → step s = exec i { s with schedule := rest }

/-- R402, R1001: which agent a step moves. While IDLE the engine has no step; with nothing scheduled the engine moves
if BUSY, with whatever word, else the host; with no host program either, the machine waits (R1004). The default order
with nothing scheduled is the model's choice (log 4). -/
def Obligations.StepMovesTheScheduledAgent : Prop :=
  ∀ s : State,
    (s.fsm = .idle → engineMove s = .next s) ∧
    (∀ rest, s.schedule = .engine :: rest → step s = engineMove { s with schedule := rest }) ∧
    (∀ rest, s.schedule = .host :: rest → step s = .next ({ s with schedule := rest } : State).hostMove) ∧
    (∀ rest, s.schedule = .platform :: rest → step s = .next ({ s with schedule := rest } : State).platformReset) ∧
    (∀ w, s.schedule = [] → s.fsm = .busy w → step s = engineMove s) ∧
    (s.schedule = [] → s.fsm = .idle → step s = .next s.hostMove) ∧
    (s.schedule = [] → s.fsm = .idle → s.hostProgram = [] → step s = .next s)

/-- R901, R918: no step ends in a trap: every step, of every agent in every state, answers a next state. -/
def Obligations.EveryStepAnswersANextState : Prop :=
  ∀ s : State, ∃ t, step s = .next t

/-- R406, R407: every command's completion writes RESULT (LAST_OP and one code), sets DONE, sets ERR exactly on a
failure, and makes the engine IDLE; no command writes CTRL or IRQ_EN, and none touches the host or the schedule. -/
def Obligations.EveryCommandEndsInOneCompletion : Prop :=
  ∀ (i : Instr) (s : State), ∃ (t : State) (err : ErrCode), exec i s = .next t ∧
    t.result = opcode i ++ err.code ∧ t.irqStat = s.irqStat ||| (if err = .ok then 1 else 3) ∧ t.fsm = .idle ∧
    t.ctrl = s.ctrl ∧ t.irqEn = s.irqEn ∧ t.schedule = s.schedule ∧ t.hostProgram = s.hostProgram ∧
    t.busLog = s.busLog

/-- R405: an issued command completes: within one step more than the schedule is long the engine is IDLE. The bound
is the model's, whose schedule is finite and then moves the engine first (log 4). -/
def Obligations.EngineBecomesIdle : Prop :=
  ∀ s : State, ∃ k, k ≤ s.schedule.length + 1 ∧ ∃ t : State, Host.Core.run core k s = .next t ∧ t.fsm = .idle

/-- R410: a failing OUT writer zeroes OUT and OUT_LEN; but for RESULT, IRQ_STAT, FSM and the entropy it asked for,
nothing else changes, so that no partial result is ever visible. -/
def Obligations.FailedOutWriterShowsNoResult : Prop :=
  ∀ (i : Instr) (s t : State), outWriter i = true → exec i s = .next t → t.errCode ≠ 0 →
    Filled s t .output [] ∧
    t = { s with
      mem := t.mem, outLen := 0, result := t.result, irqStat := t.irqStat, fsm := .idle,
      entropy := t.entropy, draws := t.draws }

/-- R413: apart from EC_KEYGEN and FRAME_ENC with PADSRC = 0, a command's outcome does not depend on the entropy
source and leaves it alone. -/
def Obligations.OnlyTwoCommandsDependOnEntropy : Prop :=
  ∀ (i : Instr) (s t : State) (answers : List (Option Nat)) (n : Nat), drawsEntropy i = false → exec i s = .next t →
    t.entropy = s.entropy ∧ t.draws = s.draws ∧
    exec i { s with entropy := answers, draws := n } = .next { t with entropy := answers, draws := n }

/-- R124 to R128, R131, R133, R141: of the commands only ZEROIZE changes KEY, NONCE, AAD, SALT, IKM, PEER or IN, for
no other command's rule names one of them among its writes (R404, R409 to R411). -/
def Obligations.CommandsNeverWriteTheHostsBuffers : Prop :=
  ∀ (i : Instr) (s t : State) (b : Buffer), i ≠ .zeroize → exec i s = .next t →
    b ∈ [Buffer.key, .nonce, .aad, .salt, .ikm, .peer, .input] → t.buf b = s.buf b

/-! ### Reset (R1001 to R1005) -/

/-- R1002: reset, in every state (a command in flight included), gives every register, buffer and hidden state its
reset value. -/
def Obligations.ResetGivesTheResetValues : Prop :=
  ∀ (s : State) (rest : List Agent), s.schedule = .platform :: rest → ∃ t, step s = .next t ∧ AtReset t

/-- R1005: the model's initial state is the reset state. -/
def Obligations.InitialStateIsTheResetState : Prop :=
  AtReset State.reset

/-! ### Engine commands (R416, R417) -/

/-- R416: NOP writes RESULT, IRQ_STAT and FSM and nothing else. -/
def Obligations.NopOnlyCompletes : Prop :=
  ∀ s : State, exec .nop s = .next { s with result := 0x0000, irqStat := s.irqStat ||| 1, fsm := .idle }

/-- R417: ZEROIZE zeroes every buffer, D, the valid bits and the 13 registers it lists; CTRL and IRQ_EN stay. -/
def Obligations.ZeroizeClearsBuffersAndSession : Prop :=
  ∀ s : State, ∃ t, exec .zeroize s = .next t ∧ (∀ b : Buffer, t.buf b = zeros b.size) ∧
    (∀ a, (∀ b : Buffer, b.holds a = false) → Memory.read t.mem a = Memory.read s.mem a) ∧
    t = { s with
      mem := t.mem, d := 0, dValid := false, peerValid := false, sharedValid := false,
      aadLen := 0, inLen := 0, outLen := 0, saltLen := 0, ikmLen := 0, privLen := 0, counter := 0, rxCtrHi := 0,
      rxCounter := 0, rxSize := 0, crcResult := 0, pad := 0, iv := 0,
      result := 0x0100, irqStat := s.irqStat ||| 1, fsm := .idle }

/-! ### ECC unit (R501 to R517) -/

/-- R511: EC_KEYGEN installs the drawn scalar and its public key; when the entropy source fails it clears them. The
drawn answer is used up; PRIV, PRIV_LEN, SHARED and SHARED_VALID stay. How the answers are held is the model's (log 1). -/
def Obligations.KeygenInstallsTheDrawnScalar : Prop :=
  ∀ s : State,
    (∀ r, s.entropyAnswer = some r → ∃ t, exec .ecKeygen s = .next t ∧
      Filled s t .pub (rawPublicKey (pointMul (scalarAnswer r) basePoint)) ∧
      Ended { s with
        d := BitVec.ofNat 256 (scalarAnswer r), dValid := true,
        entropy := s.afterDraw.entropy, draws := s.afterDraw.draws } t 0x10 .ok) ∧
    (s.entropyAnswer = none → ∃ t, exec .ecKeygen s = .next t ∧ Filled s t .pub [] ∧
      Ended { s with
        d := 0, dValid := false, entropy := s.afterDraw.entropy, draws := s.afterDraw.draws } t 0x10 .entropyErr)

/-- R923: a drawn scalar is in 1..n-1, and every scalar of that range can be drawn. The form of the answers is the
model's (log 1). -/
def Obligations.DrawnScalarsAreExactlyTheRange : Prop :=
  ∀ d : Nat, (1 ≤ d ∧ d ≤ groupOrder - 1) ↔ ∃ r, scalarAnswer r = d

/-- R512: EC_IMPORT_PRIV, its checks in order: LEN_ERR, INVALID_KEY, else the scalar and its public key. -/
def Obligations.ImportPrivInstallsTheScalar : Prop :=
  ∀ s : State, ∃ t, exec .ecImportPriv s = .next t ∧
    if s.privLen.toNat = 0 ∨ 36 < s.privLen.toNat then
      Filled s t .pub [] ∧ Ended { s with d := 0, dValid := false } t 0x11 .lenErr
    else if intBE ((s.buf .priv).take s.privLen.toNat) = 0 ∨
        groupOrder ≤ intBE ((s.buf .priv).take s.privLen.toNat) then
      Filled s t .pub [] ∧ Ended { s with d := 0, dValid := false } t 0x11 .invalidKey
    else
      Filled s t .pub (rawPublicKey (pointMul (intBE ((s.buf .priv).take s.privLen.toNat)) basePoint)) ∧
      Ended { s with
        d := BitVec.ofNat 256 (intBE ((s.buf .priv).take s.privLen.toNat)), dValid := true } t 0x11 .ok

/-- R513: EC_EXPORT_PRIV writes the minimal encoding of D to PRIV and its length to PRIV_LEN; with no valid key it
fails and writes nothing of its own. -/
def Obligations.ExportPrivWritesTheMinimalScalar : Prop :=
  ∀ s : State,
    if s.dValid then
      ∃ t, exec .ecExportPriv s = .next t ∧ Filled s t .priv (minBE s.d.toNat) ∧
        Ended { s with privLen := BitVec.ofNat 16 (minBE s.d.toNat).length } t 0x12 .ok
    else
      exec .ecExportPriv s = .next { s with result := 0x1206, irqStat := s.irqStat ||| 3, fsm := .idle }

/-- R509: `minBE(d)` is the shortest big-endian string of `d`, with a non-zero first byte and at most 32 bytes. -/
def Obligations.MinimalEncodingIsShortest : Prop :=
  ∀ d : Nat, 1 ≤ d → d < 2 ^ 256 →
    intBE (minBE d) = d ∧ (minBE d).length ≤ 32 ∧ byteAt (minBE d) 0 ≠ 0 ∧
    ∀ s : ByteString, intBE s = d → (minBE d).length ≤ s.length

/-- R517 (b): importing what was exported restores the scalar. -/
def Obligations.ExportThenImportRestoresTheScalar : Prop :=
  ∀ s : State, s.dValid = true → validScalar s.d.toNat = true →
    ∃ t u, exec .ecExportPriv s = .next t ∧ exec .ecImportPriv t = .next u ∧
      u.errCode = 0 ∧ u.dValid = true ∧ u.d = s.d

/-- R514: EC_IMPORT_PUB sets PEER_VALID to whether PEER holds a valid public key; PEER is unchanged. -/
def Obligations.ImportPubValidatesPeer : Prop :=
  ∀ s : State, exec .ecImportPub s =
    if validPub (s.buf .peer) then
      .next { s with peerValid := true, result := 0x1300, irqStat := s.irqStat ||| 1, fsm := .idle }
    else
      .next { s with peerValid := false, result := 0x1306, irqStat := s.irqStat ||| 3, fsm := .idle }

/-- R507: what a valid public key is, in plain arithmetic modulo p; the all-zero string is not valid. -/
def Obligations.ValidPubIsTheCurveEquation : Prop :=
  (∀ s : ByteString, validPub s = true ↔
    rawX s < fieldPrime ∧ rawY s < fieldPrime ∧
    rawY s ^ 2 % fieldPrime = (rawX s ^ 3 + curveA * rawX s + curveB) % fieldPrime) ∧
  validPub (zeros 64) = false

/-- R515, R516: EC_AGREE writes the x-coordinate of D·Q, or fails with KEY_AGREEMENT and clears SHARED; PEER_VALID is
not consulted. -/
def Obligations.AgreeWritesTheSharedSecret : Prop :=
  ∀ s : State, ∃ t, exec .ecAgree s = .next t ∧
    if s.dValid = true ∧ validPub (s.buf .peer) = true then
      match pointMul s.d.toNat (decodePublicKey (s.buf .peer)) with
      | .infinity => Filled s t .shared [] ∧ Ended { s with sharedValid := false } t 0x14 .keyAgreement
      | .affine xS _ => Filled s t .shared (beBytes 32 xS) ∧ Ended { s with sharedValid := true } t 0x14 .ok
    else Filled s t .shared [] ∧ Ended { s with sharedValid := false } t 0x14 .keyAgreement

/-- R502: the computed inverse is the power p-2. -/
def Obligations.FieldInverseIsThePower : Prop :=
  ∀ z : Nat, fInv z = z ^ (fieldPrime - 2) % fieldPrime

/-- R504, R505: the group law, case by case, in plain field arithmetic (`ZMod p`, with the inverse `z^(p-2)` of R502),
and the scalar product as double-and-add over the bits of the scalar, the second of R505's two forms (log 11). -/
def Obligations.ScalarProductDoublesAndAdds : Prop :=
  (∀ q : Point, pointAdd .infinity q = q ∧ pointAdd q .infinity = q) ∧
  (∀ x1 y1 x2 y2 : Nat,
    if x1 = x2 ∧ (y1 + y2) % fieldPrime = 0 then pointAdd (.affine x1 y1) (.affine x2 y2) = .infinity
    else
      ∃ (lam : ZMod fieldPrime) (x3 y3 : Nat), pointAdd (.affine x1 y1) (.affine x2 y2) = .affine x3 y3 ∧
        x3 < fieldPrime ∧ y3 < fieldPrime ∧
        lam = (if x1 = x2 ∧ y1 = y2 then
            (3 * (x1 : ZMod fieldPrime) ^ 2 + (curveA : ZMod fieldPrime)) *
              (2 * (y1 : ZMod fieldPrime)) ^ (fieldPrime - 2)
          else
            ((y2 : ZMod fieldPrime) - (y1 : ZMod fieldPrime)) *
              ((x2 : ZMod fieldPrime) - (x1 : ZMod fieldPrime)) ^ (fieldPrime - 2)) ∧
        (x3 : ZMod fieldPrime) = lam ^ 2 - (x1 : ZMod fieldPrime) - (x2 : ZMod fieldPrime) ∧
        (y3 : ZMod fieldPrime) =
          lam * ((x1 : ZMod fieldPrime) - (x3 : ZMod fieldPrime)) - (y1 : ZMod fieldPrime)) ∧
  ∀ (k : Nat) (q : Point), k < 2 ^ 255 →
    pointMul 0 q = .infinity ∧
    pointMul (2 * k) q = pointAdd (pointMul k q) (pointMul k q) ∧
    pointMul (2 * k + 1) q = pointAdd (pointAdd (pointMul k q) (pointMul k q)) q

/-- R506: a point's raw encoding is 64 bytes and decodes to the point. -/
def Obligations.RawPublicKeyRoundTrips : Prop :=
  ∀ x y : Nat, x < 2 ^ 256 → y < 2 ^ 256 →
    (rawPublicKey (.affine x y)).length = 64 ∧ decodePublicKey (rawPublicKey (.affine x y)) = .affine x y

/-! ### KDF unit (R601 to R616) -/

/-- R613: HKDF, all four forms, its checks in order, its 64 bytes by Extract and Expand. -/
def Obligations.HkdfWritesTheKeyMaterial : Prop :=
  ∀ (s : State) (saltp ikmsrc : Bool), ∃ t, exec (.hkdf saltp ikmsrc) s = .next t ∧
    if (saltp = true ∧ 64 < s.saltLen.toNat) ∨ (ikmsrc = false ∧ 64 < s.ikmLen.toNat) then
      OutFailure s t 0x20 .lenErr
    else if ikmsrc = true ∧ s.sharedValid = false then OutFailure s t 0x20 .invalidKey
    else
      ∃ ikm salt info prk t1 t2 : ByteString,
        ikm = (if ikmsrc then s.buf .shared else (s.buf .ikm).take s.ikmLen.toNat) ∧
        salt = (if saltp then (s.buf .salt).take s.saltLen.toNat else zeros 32) ∧
        info = (if saltp then loginInfo else setupInfo) ∧
        prk = hmacSha256 salt ikm ∧ t1 = hmacSha256 prk (info ++ [0x01]) ∧
        t2 = hmacSha256 prk (t1 ++ info ++ [0x02]) ∧
        OutSuccess s t 0x20 (t1 ++ t2) ∧ t.outLen = 64

/-- R610: a present salt of length 0 gives the same PRK as an absent one. -/
def Obligations.EmptySaltGivesTheAbsentSaltsPrk : Prop :=
  ∀ ikm : ByteString, hkdfExtract [] ikm = hkdfExtract (zeros 32) ikm

/-- R614: HMAC over SALT and IN, 32 bytes, never truncated; else LEN_ERR. -/
def Obligations.HmacWritesTheDigest : Prop :=
  ∀ s : State, ∃ t, exec .hmac s = .next t ∧
    if 64 < s.saltLen.toNat ∨ 512 < s.inLen.toNat then OutFailure s t 0x21 .lenErr
    else
      OutSuccess s t 0x21 (hmacSha256 ((s.buf .salt).take s.saltLen.toNat) ((s.buf .input).take s.inLen.toNat)) ∧
      t.outLen = 32

/-! ### AEAD unit (R701 to R726) -/

/-- R719: CCM_ENC writes ciphertext and tag, IN_LEN + 4 bytes; else LEN_ERR. -/
def Obligations.CcmEncWritesCiphertextAndTag : Prop :=
  ∀ s : State, ∃ t, exec .ccmEnc s = .next t ∧
    if 64 < s.aadLen.toNat ∨ 508 < s.inLen.toNat then OutFailure s t 0x30 .lenErr
    else
      OutSuccess s t 0x30
        (ccmEncrypt (s.buf .key) (s.buf .nonce) ((s.buf .aad).take s.aadLen.toNat)
          ((s.buf .input).take s.inLen.toNat)) ∧
      t.outLen.toNat = s.inLen.toNat + 4

/-- R720: CCM_DEC, its checks in order: LEN_ERR, AUTH_FAIL (fewer than 4 bytes, or a wrong tag), else the plaintext. -/
def Obligations.CcmDecWritesThePlaintextOrFails : Prop :=
  ∀ s : State, ∃ t, exec .ccmDec s = .next t ∧
    if 64 < s.aadLen.toNat ∨ 512 < s.inLen.toNat then OutFailure s t 0x31 .lenErr
    else if s.inLen.toNat < 4 then OutFailure s t 0x31 .authFail
    else
      match ccmDecrypt (s.buf .key) (s.buf .nonce) ((s.buf .aad).take s.aadLen.toNat)
          ((s.buf .input).take s.inLen.toNat) with
      | none => OutFailure s t 0x31 .authFail
      | some p => OutSuccess s t 0x31 p ∧ t.outLen.toNat + 4 = s.inLen.toNat

/-- R721, R722: DEVID_ENC is CCM encryption under the fixed nonce and "devID"; else LEN_ERR. -/
def Obligations.DevidEncUsesTheFixedNonce : Prop :=
  ∀ s : State, ∃ t, exec .devidEnc s = .next t ∧
    if 508 < s.inLen.toNat then OutFailure s t 0x32 .lenErr
    else
      OutSuccess s t 0x32
        (ccmEncrypt (s.buf .key) ((List.range 12).map fun j => BitVec.ofNat 8 (16 + j))
          [0x64, 0x65, 0x76, 0x49, 0x44] ((s.buf .input).take s.inLen.toNat)) ∧
      t.outLen.toNat = s.inLen.toNat + 4

/-- R726: decryption inverts encryption under the same key, nonce and associated data. -/
def Obligations.CcmDecryptInvertsEncrypt : Prop :=
  ∀ key nonce aad p : ByteString, key.length = 16 →
    ccmDecrypt key nonce aad (ccmEncrypt key nonce aad p) = some p

/-- R726, on the machine: CCM_DEC of the OUT of CCM_ENC, with the same KEY, NONCE and AAD, succeeds and returns the
original IN. -/
def Obligations.CcmDecReturnsWhatCcmEncEncrypted : Prop :=
  ∀ s t u : State, s.aadLen.toNat ≤ 64 → s.inLen.toNat ≤ 508 → exec .ccmEnc s = .next t →
    u.buf .key = s.buf .key → u.buf .nonce = s.buf .nonce → u.buf .aad = s.buf .aad → u.aadLen = s.aadLen →
    u.inLen = t.outLen → (u.buf .input).take t.outLen.toNat = (t.buf .output).take t.outLen.toNat →
    ∃ v, exec .ccmDec u = .next v ∧ v.errCode = 0 ∧ v.outLen = s.inLen ∧
      (v.buf .output).take s.inLen.toNat = (s.buf .input).take s.inLen.toNat

/-! ### Frame unit (R801 to R817) -/

/-- R803: CRC16 writes the two bytes of CRC16_FN, `c0` in bits 7:0, and not OUT; LEN_ERR zeroes CRC_RESULT. -/
def Obligations.Crc16WritesTheTwoBytes : Prop :=
  ∀ s : State, exec .crc16 s =
    if 512 < s.inLen.toNat then
      .next { s with crcResult := 0, result := 0x4202, irqStat := s.irqStat ||| 3, fsm := .idle }
    else
      .next { s with
        crcResult := (Config.crc16Fn ((s.buf .input).take s.inLen.toNat)).2 ++
          (Config.crc16Fn ((s.buf .input).take s.inLen.toNat)).1
        result := 0x4200, irqStat := s.irqStat ||| 1, fsm := .idle }

/-- R809: FRAME_ENC, both forms, its checks in order (LEN_ERR, CTR_EXHAUSTED, ENTROPY_ERR), its frame byte by byte,
and COUNTER. Only PADSRC = 0 asks the entropy source, and only after the first two checks. How its answers are held
is the model's (log 1). -/
def Obligations.FrameEncBuildsTheFrame : Prop :=
  ∀ (s : State) (padsrc : Bool), ∃ t, exec (.frameEnc padsrc) s = .next t ∧
    if s.inLen.toNat < 3 ∨ 500 < s.inLen.toNat then OutFailure s t 0x40 .lenErr
    else if s.autoInc = true ∧ s.counter = 0xFFFFFFFF then OutFailure s t 0x40 .ctrExhausted
    else
      match (if padsrc then some s.padBytes else s.entropyBytes 4) with
      | none => OutFailure s.afterDraw t 0x40 .entropyErr
      | some pad =>
        ∃ m ct body : ByteString,
          m = (s.buf .input).take s.inLen.toNat ∧
          ct = ccmEncrypt (s.buf .key) (s.ivBytes ++ zeros 4 ++ beBytes 4 s.counter.toNat) [] (m.drop 3 ++ pad) ∧
          body = [0x55, 0xAB, byteAt m 2, s.counter.extractLsb' 0 8, s.counter.extractLsb' 8 8] ++ ct ∧
          OutSuccess { (s.afterPad padsrc) with counter := if s.autoInc then s.counter + 1 else s.counter } t 0x40
            (body ++ [(Config.crc16Fn (body.drop 2)).1, (Config.crc16Fn (body.drop 2)).2]) ∧
          t.outLen.toNat = s.inLen.toNat + 12

/-- R811: FRAME_DEC, its checks in order (LEN_ERR, FRAME_ERR, FRAME_ERR, CRC_ERR, AUTH_FAIL), its output, RX_SIZE and
RX_COUNTER; COUNTER and RX_CTR_HI stay. -/
def Obligations.FrameDecParsesTheFrame : Prop :=
  ∀ s : State, ∃ (t : State) (f : ByteString), exec .frameDec s = .next t ∧ f = (s.buf .input).take s.inLen.toNat ∧
    if 512 < s.inLen.toNat then OutFailure s t 0x41 .lenErr
    else if s.inLen.toNat < 15 then OutFailure s t 0x41 .frameErr
    else if byteAt f 0 ≠ 0x55 ∨ byteAt f 1 ≠ 0xAB then OutFailure s t 0x41 .frameErr
    else if s.crcChk = true ∧
        [(Config.crc16Fn (slice f 2 (s.inLen.toNat - 2))).1, (Config.crc16Fn (slice f 2 (s.inLen.toNat - 2))).2] ≠
          slice f (s.inLen.toNat - 2) s.inLen.toNat then
      OutFailure s t 0x41 .crcErr
    else
      ∃ c : Nat, c = s.rxCtrHi.toNat * 65536 + (byteAt f 4).toNat * 256 + (byteAt f 3).toNat ∧
        match ccmDecrypt (s.buf .key) (s.ivBytes ++ zeros 4 ++ beBytes 4 c) [] (slice f 5 (s.inLen.toNat - 2)) with
        | none => OutFailure s t 0x41 .authFail
        | some p =>
          OutSuccess { s with rxSize := byteAt f 2, rxCounter := BitVec.ofNat 32 c } t 0x41
            (f.take 3 ++ p.take (p.length - 4)) ∧
          t.outLen.toNat + 12 = s.inLen.toNat

/-- R806, R817: two different 32-bit counters never give one frame nonce. -/
def Obligations.FrameNonceIsInjectiveInTheCounter : Prop :=
  ∀ (iv : ByteString) (c1 c2 : Nat), c1 < 2 ^ 32 → c2 < 2 ^ 32 → frameNonce iv c1 = frameNonce iv c2 → c1 = c2

/-- R810: with AUTOINC = 1 a successful FRAME_ENC adds exactly 1 to COUNTER (it never wraps), a failed one leaves it,
and an exhausted COUNTER gives CTR_EXHAUSTED once the length check (R408) has passed; with AUTOINC = 0 COUNTER stays
and CTR_EXHAUSTED is never reported. -/
def Obligations.FrameCounterNeverWraps : Prop :=
  ∀ (s t : State) (padsrc : Bool), exec (.frameEnc padsrc) s = .next t →
    if s.autoInc then
      (t.errCode = 0 → t.counter.toNat = s.counter.toNat + 1) ∧ (t.errCode ≠ 0 → t.counter = s.counter) ∧
      (s.counter = 0xFFFFFFFF → 3 ≤ s.inLen.toNat → s.inLen.toNat ≤ 500 → t.errCode = 0x09)
    else t.counter = s.counter ∧ t.errCode ≠ 0x09

/-- R814: FRAME_DEC of a frame FRAME_ENC built, with the same KEY and IV and RX_CTR_HI set to the counter's upper
half, succeeds with `55 AB`, the size byte and the payload, whatever CRC16_FN is, and with either CRCCHK. -/
def Obligations.FrameDecReturnsWhatFrameEncFramed : Prop :=
  ∀ (s t u : State) (padsrc : Bool), exec (.frameEnc padsrc) s = .next t → t.errCode = 0 →
    u.buf .key = s.buf .key → u.iv = s.iv → u.rxCtrHi = s.counter.extractLsb' 16 16 → u.inLen = t.outLen →
    (u.buf .input).take t.outLen.toNat = (t.buf .output).take t.outLen.toNat →
    ∃ v, exec .frameDec u = .next v ∧ v.errCode = 0 ∧ v.outLen = s.inLen ∧ v.rxCounter = s.counter ∧
      v.rxSize = byteAt (s.buf .input) 2 ∧
      (v.buf .output).take s.inLen.toNat =
        [0x55, 0xAB, byteAt (s.buf .input) 2] ++ ((s.buf .input).take s.inLen.toNat).drop 3

/-! ### The invariant (R101, R130, R134 to R138, R911) -/

/-- The invariant holds at reset. -/
def Obligations.InvariantHoldsAtReset : Prop := State.reset.Inv

/-- Every step of every agent keeps the invariant: the memory stays canonical and within the buffers, PUB is the public
key of D, the valid bits tell the truth, OUT is zero past OUT_LEN, no unknown code is reported. -/
def Obligations.EveryStepKeepsTheInvariant : Prop :=
  ∀ s t : State, s.Inv → step s = .next t → t.Inv

/-! ### The window (R101, R201 to R217) -/

/-- R201, R202: MSC_BASE is a multiple of 2048, and the window is exactly the 2048 addresses from it. Its
value stays open (log 3). -/
def Obligations.WindowIsTwoKilobytesAtTheBase : Prop :=
  Config.mscBase % 2048 = 0 ∧ (∀ off, off < 2048 → windowOffset (Config.mscBase + off) = some off) ∧
  ∀ addr, windowOffset addr = none ↔ addr < Config.mscBase ∨ Config.mscBase + 2048 ≤ addr

/-- R101, R202, R206: the map of the window. Which register or which byte index of which buffer each aligned offset
reaches, which offsets are unmapped, and the access type of each location. -/
def Obligations.OffsetsReachTheMapsLocations : Prop :=
  (accessLocation 0x000 4 = some (.reg .id) ∧ accessLocation 0x004 4 = some (.reg .version) ∧
    accessLocation 0x008 4 = some (.reg .ctrl) ∧ accessLocation 0x00C 4 = some (.reg .status) ∧
    accessLocation 0x010 4 = some (.reg .cmd) ∧ accessLocation 0x014 4 = some (.reg .result) ∧
    accessLocation 0x018 4 = some (.reg .irqEn) ∧ accessLocation 0x01C 4 = some (.reg .irqStat) ∧
    accessLocation 0x020 4 = some (.reg .aadLen) ∧ accessLocation 0x024 4 = some (.reg .inLen) ∧
    accessLocation 0x028 4 = some (.reg .outLen) ∧ accessLocation 0x02C 4 = some (.reg .saltLen) ∧
    accessLocation 0x030 4 = some (.reg .ikmLen) ∧ accessLocation 0x034 4 = some (.reg .privLen) ∧
    accessLocation 0x038 4 = some (.reg .counter) ∧ accessLocation 0x03C 4 = some (.reg .rxCtrHi) ∧
    accessLocation 0x040 4 = some (.reg .rxCounter) ∧ accessLocation 0x044 4 = some (.reg .rxSize) ∧
    accessLocation 0x048 4 = some (.reg .crcResult) ∧ accessLocation 0x04C 4 = some (.reg .pad) ∧
    accessLocation 0x050 4 = some (.reg .iv)) ∧
  (∀ off, off < 0x800 → off % 4 = 0 →
      (0x100 ≤ off → off ≤ 0x10F → accessLocation off 4 = some (.buf .key (off - 0x100))) ∧
      (0x110 ≤ off → off ≤ 0x11B → accessLocation off 4 = some (.buf .nonce (off - 0x110))) ∧
      (0x140 ≤ off → off ≤ 0x17F → accessLocation off 4 = some (.buf .aad (off - 0x140))) ∧
      (0x180 ≤ off → off ≤ 0x1BF → accessLocation off 4 = some (.buf .salt (off - 0x180))) ∧
      (0x1C0 ≤ off → off ≤ 0x1FF → accessLocation off 4 = some (.buf .ikm (off - 0x1C0))) ∧
      (0x200 ≤ off → off ≤ 0x223 → accessLocation off 4 = some (.buf .priv (off - 0x200))) ∧
      (0x240 ≤ off → off ≤ 0x27F → accessLocation off 4 = some (.buf .pub (off - 0x240))) ∧
      (0x280 ≤ off → off ≤ 0x2BF → accessLocation off 4 = some (.buf .peer (off - 0x280))) ∧
      (0x2C0 ≤ off → off ≤ 0x2DF → accessLocation off 4 = some (.buf .shared (off - 0x2C0))) ∧
      (0x400 ≤ off → off ≤ 0x5FF → accessLocation off 4 = some (.buf .input (off - 0x400))) ∧
      (0x600 ≤ off → off ≤ 0x7FF → accessLocation off 4 = some (.buf .output (off - 0x600))) ∧
      (accessLocation off 4 = none ↔
        (0x054 ≤ off ∧ off ≤ 0x0FF) ∨ (0x11C ≤ off ∧ off ≤ 0x13F) ∨ (0x224 ≤ off ∧ off ≤ 0x23F) ∨
        (0x2E0 ≤ off ∧ off ≤ 0x3FF))) ∧
  (∀ r : Reg, r.access =
    if r ∈ [Reg.id, .version, .status, .result, .outLen, .rxCounter, .rxSize, .crcResult] then .readOnly
    else if r = .cmd then .writeOnly
    else if r = .irqStat then .writeOneToClear
    else .readWrite) ∧
  ∀ b : Buffer, b.access =
    if b = .key then .writeOnly else if b ∈ [Buffer.pub, .shared, .output] then .readOnly else .readWrite

/-- R202, R215, R217, R205: in both FSM states a 32-bit read of a mapped offset is answered with the location's current
value and changes nothing, and a write is acknowledged (a dropped one too, log 13) and has the effect the statements
about `hostWrite` and `windowWrite` give it. The value read, register by register: ID and VERSION are constants (R102, R103), STATUS is the
view of the hidden state (R105), CMD reads 0 (R106), the others read what they hold with the reserved bits 0 (R116,
R209); BufferWordsUseLittleEndianLanes says it for the buffers. A refused access changes no state at all and is
answered with a bus error, a read with 0. -/
def Obligations.AccessesAnswerAValueOrABusError : Prop :=
  (∀ (s : State) (off : Nat) (l : Location), accessLocation off 4 = some l →
    s.busReply (.read (Config.mscBase + off) 4) = .readData (s.locationRead l) ∧
    s.busEffect (.read (Config.mscBase + off) 4) = s ∧
    ∀ v : Word,
      s.busReply (.write (Config.mscBase + off) 4 v) = .writeAck ∧
      s.busEffect (.write (Config.mscBase + off) 4 v) = s.hostWrite v l ∧ s.windowWrite off 4 v = s.hostWrite v l) ∧
  (∀ (s : State) (r : Reg), s.locationRead (.reg r) =
    match r with
    | .id => 0x4D534331
    | .version => 0x00000001
    | .cmd => 0x00000000
    | .status =>
      (if s.fsm = .idle then 0x0 else 0x1) ||| (if s.dValid then 0x2 else 0x0) |||
        (if s.peerValid then 0x4 else 0x0) ||| (if s.sharedValid then 0x8 else 0x0)
    | .ctrl => BitVec.ofNat 32 s.ctrl.toNat
    | .result => BitVec.ofNat 32 s.result.toNat
    | .irqEn => BitVec.ofNat 32 s.irqEn.toNat
    | .irqStat => BitVec.ofNat 32 s.irqStat.toNat
    | .aadLen => BitVec.ofNat 32 s.aadLen.toNat
    | .inLen => BitVec.ofNat 32 s.inLen.toNat
    | .outLen => BitVec.ofNat 32 s.outLen.toNat
    | .saltLen => BitVec.ofNat 32 s.saltLen.toNat
    | .ikmLen => BitVec.ofNat 32 s.ikmLen.toNat
    | .privLen => BitVec.ofNat 32 s.privLen.toNat
    | .counter => s.counter
    | .rxCtrHi => BitVec.ofNat 32 s.rxCtrHi.toNat
    | .rxCounter => s.rxCounter
    | .rxSize => BitVec.ofNat 32 s.rxSize.toNat
    | .crcResult => BitVec.ofNat 32 s.crcResult.toNat
    | .pad => s.pad
    | .iv => s.iv) ∧
  ∀ (s : State) (off bytes : Nat) (v : Word), off < 0x800 →
    (bytes ≠ 4 ∨ off % 4 ≠ 0 ∨ locate off = none) →
    s.busReply (.read (Config.mscBase + off) bytes) = .readError 0 ∧
    s.busReply (.write (Config.mscBase + off) bytes v) = .writeError ∧
    s.busEffect (.read (Config.mscBase + off) bytes) = s ∧
    s.busEffect (.write (Config.mscBase + off) bytes v) = s

/-- R216: while BUSY a write is dropped and sets OVR and changes nothing else, except to IRQ_EN and IRQ_STAT, where it
is performed in both FSM states. -/
def Obligations.WritesWhileBusyAreDropped : Prop :=
  ∀ (s : State) (v : Word),
    s.windowWrite 0x018 4 v = { s with irqEn := v.setWidth 3 } ∧
    s.windowWrite 0x01C 4 v = { s with irqStat := s.irqStat &&& ~~~(v.setWidth 3) } ∧
    ∀ (w : Word) (off : Nat) (l : Location), s.fsm = .busy w → accessLocation off 4 = some l → off ≠ 0x018 →
      off ≠ 0x01C → s.windowWrite off 4 v = { s with irqStat := s.irqStat ||| 4 }

/-- R216, R221: while BUSY the host changes nothing but IRQ_EN, IRQ_STAT, its own program and its trace, so the
operands a command reads at its completion are those at its issue. -/
def Obligations.OperandsAreStableWhileBusy : Prop :=
  ∀ (s : State) (w : Word), s.fsm = .busy w →
    s.hostMove = { s with
      irqEn := s.hostMove.irqEn, irqStat := s.hostMove.irqStat,
      hostProgram := s.hostMove.hostProgram, busLog := s.hostMove.busLog }

/-- R403: a write to CMD while IDLE latches the word and does nothing else; while BUSY it is dropped (R216). -/
def Obligations.CmdWriteIssuesTheWord : Prop :=
  ∀ (s : State) (w : Word),
    (s.fsm = .idle → s.windowWrite 0x010 4 w = { s with fsm := .busy w }) ∧
    ∀ w' : Word, s.fsm = .busy w' → s.windowWrite 0x010 4 w = { s with irqStat := s.irqStat ||| 4 }

/-- R116, R208, R209: a write of a register while IDLE: a read-only register ignores it; a read-write register then
reads the value's used bits, the other registers, the buffers and the hidden state staying as they were. -/
def Obligations.RegisterWritesKeepTheUsedBits : Prop :=
  ∀ (s : State) (v : Word) (r : Reg), s.fsm = .idle →
    (r.access = .readOnly → s.hostWrite v (.reg r) = s) ∧
    (r.access = .readWrite →
      (s.hostWrite v (.reg r)).regRead r = v &&& usedBits r ∧
      (∀ r' : Reg, r' ≠ r → (s.hostWrite v (.reg r)).regRead r' = s.regRead r') ∧
      (s.hostWrite v (.reg r)).mem = s.mem ∧ (s.hostWrite v (.reg r)).d = s.d ∧
      (s.hostWrite v (.reg r)).fsm = s.fsm)

/-- R207, R208, R210, R217: the lanes of a buffer word. In both FSM states a read returns the sum of byte
`index + j` times `256^j`, or 0 for KEY. A performed write puts `v[8j+7:8j]` at byte `index + j` and changes no other
byte, so that a read returns the word again; a read-only buffer ignores the write. -/
def Obligations.BufferWordsUseLittleEndianLanes : Prop :=
  (∀ (s : State) (b : Buffer) (index : Nat), index % 4 = 0 → index < b.size →
    (s.locationRead (.buf b index)).toNat =
      if b = .key then 0
      else
        (byteAt (s.buf b) index).toNat + (byteAt (s.buf b) (index + 1)).toNat * 256 +
          (byteAt (s.buf b) (index + 2)).toNat * 256 ^ 2 + (byteAt (s.buf b) (index + 3)).toNat * 256 ^ 3) ∧
  ∀ (s : State) (v : Word) (b : Buffer) (index : Nat), Memory.wf s.mem = true → s.fsm = .idle →
    index % 4 = 0 → index < b.size →
    if b.access = .readOnly then s.hostWrite v (.buf b index) = s
    else
      (∀ j, j < 4 → Memory.read (s.hostWrite v (.buf b index)).mem (b.base + index + j) = v.extractLsb' (8 * j) 8) ∧
      (∀ a, a < b.base + index ∨ b.base + index + 4 ≤ a →
        Memory.read (s.hostWrite v (.buf b index)).mem a = Memory.read s.mem a) ∧
      (s.hostWrite v (.buf b index)).locationRead (.buf b index) = if b = .key then 0 else v

/-- R131, R137: a performed write of a PEER word clears PEER_VALID; of any other buffer's word it leaves it. -/
def Obligations.PeerWriteClearsPeerValid : Prop :=
  ∀ (s : State) (v : Word) (b : Buffer) (index : Nat), s.fsm = .idle →
    s.hostWrite v (.buf b index) =
      { s with
        mem := (s.hostWrite v (.buf b index)).mem
        peerValid := if b = .peer then false else s.peerValid }

/-- R315: the loop `wait` reads STATUS and goes round again exactly while BUSY. -/
def Obligations.WaitPollsUntilIdle : Prop :=
  ∀ (s : State) (rest : List HostOp), s.hostProgram = .pollIdle :: rest →
    s.hostMove.hostProgram = (if s.fsm = .idle then rest else s.hostProgram) ∧
    s.hostMove.busLog =
      ⟨.read (Config.mscBase + 0x00C) 4, .readData (s.regRead .status)⟩ :: s.busLog ∧
    (s.fsm = .idle ↔ (s.regRead .status).getLsbD 0 = false)

/-- R315: the line `load BUF, b0 b1 ...` puts its bytes at the buffer's start, the last word padded with zeros, one
write a word, and changes no other byte. The host moves while the engine is IDLE (log 4). -/
def Obligations.LoadLineFillsTheBuffer : Prop :=
  ∀ (s : State) (b : Buffer) (bytes : ByteString) (rest : List HostOp), Memory.wf s.mem = true → s.fsm = .idle →
    s.schedule = [] → b.access ≠ .readOnly → bytes.length ≤ b.size →
    s.hostProgram = (HostLine.load b bytes).expand ++ rest →
    ∃ t : State, Host.Core.run core ((bytes.length + 3) / 4) s = .next t ∧ t.hostProgram = rest ∧ t.fsm = .idle ∧
      t.buf b = bytes ++ zeros ((bytes.length + 3) / 4 * 4 - bytes.length) ++
        (s.buf b).drop ((bytes.length + 3) / 4 * 4) ∧
      ∀ a, b.holds a = false → Memory.read t.mem a = Memory.read s.mem a

/-- R313, R315, R403, R404: the line `run MNEMONIC` writes the command's word to CMD, the engine completes the command,
and `wait` reads STATUS once and ends. Three steps, the engine moving as soon as it is BUSY (log 4). -/
def Obligations.RunLineCompletesTheCommand : Prop :=
  ∀ (s : State) (i : Instr) (rest : List HostOp), s.fsm = .idle → s.schedule = [] →
    s.hostProgram = (HostLine.run i).expand ++ rest →
    ∃ t : State,
      exec i { s with
        fsm := .busy (encode i), hostProgram := .pollIdle :: rest
        busLog := ⟨.write (Config.mscBase + 0x010) 4 (encode i), .writeAck⟩ :: s.busLog } = .next t ∧
      Host.Core.run core 3 s = .next { t with
        hostProgram := rest
        busLog := ⟨.read (Config.mscBase + 0x00C) 4, .readData (t.regRead .status)⟩ :: t.busLog }

/-! ### Flags and whole-machine rules -/

/-- R916: the interrupt line is 1 exactly if a pending bit is enabled. -/
def Obligations.IrqIsAnEnabledPendingBit : Prop :=
  ∀ s : State, s.irq = true ↔ s.irqStat &&& s.irqEn ≠ 0

/-- R109, R916: a pending bit of IRQ_STAT is cleared by no step but a reset (the platform moves) and the host's write
of 1 to it (the host moves). Who moves with nothing scheduled is the model's choice (log 4). -/
def Obligations.PendingBitsAreSticky : Prop :=
  ∀ (s t : State) (k : Nat), step s = .next t → s.irqStat.getLsbD k = true → t.irqStat.getLsbD k = false →
    s.mover = .platform ∨
    (s.mover = .host ∧
      ∃ addr v rest, s.hostProgram = .access (.write addr 4 v) :: rest ∧ windowOffset addr = some 0x01C ∧
        v.getLsbD k = true)

/-- R139: FSM leaves IDLE only in a host step that writes w to CMD, to BUSY(w). No host step ends BUSY(w); an engine
step (the completion) or a reset does, to IDLE. Who moves with nothing scheduled is the model's choice (log 4). -/
def Obligations.FsmMovesOnlyByIssueAndCompletion : Prop :=
  ∀ s t : State, step s = .next t →
    (s.fsm = .idle → t.fsm = .idle ∨
      (s.mover = .host ∧
        ∃ addr v rest, s.hostProgram = .access (.write addr 4 v) :: rest ∧ windowOffset addr = some 0x010 ∧
          t.fsm = .busy v)) ∧
    ∀ w, s.fsm = .busy w → if s.mover = .host then t.fsm = .busy w else t.fsm = .idle

/-- R921, R124, R135: the host's accesses do not depend on KEY or D: two machines that differ in nothing else answer
the host's next operation alike and stay alike. What a command shows (EC_EXPORT_PRIV writes D to PRIV) is a step of
the engine, of which this says nothing. -/
def Obligations.HostAccessesDoNotDependOnKeyOrScalar : Prop :=
  ∀ s t : State, Memory.wf s.mem = true → Memory.wf t.mem = true → SameButSecrets s t →
    SameButSecrets s.hostMove t.hostMove ∧ s.observation = t.observation
end

