-- ==== Sys2Proof/Laws/Bytes.lean ====
section
/-! SUPPORT. Lemmas about byte strings and their integers. -/

namespace Sys2Proof.Machine

@[simp] theorem beBytes_length (k v : Nat) : (beBytes k v).length = k := by
  induction k with
  | zero => rfl
  | succ k ih => simp [beBytes, ih]

@[simp] theorem leBytes_length (k v : Nat) : (leBytes k v).length = k := by
  induction k generalizing v with
  | zero => rfl
  | succ k ih => simp [leBytes, ih]

@[simp] theorem zeros_length (k : Nat) : (zeros k).length = k := by simp [zeros]

@[simp] theorem zeros_zero : zeros 0 = [] := rfl

theorem zeros_succ (k : Nat) : zeros (k + 1) = 0 :: zeros k := rfl

@[simp] theorem xorBytes_length (a b : ByteString) : (xorBytes a b).length = min a.length b.length := by
  simp [xorBytes]

/-- Exclusive-or with the same stream twice gives the string back, if the stream is long enough. -/
theorem xorBytes_cancel (a k : ByteString) (h : a.length ≤ k.length) : xorBytes (xorBytes a k) k = a := by
  induction a generalizing k with
  | nil => rfl
  | cons x a ih =>
    cases k with
    | nil => simp at h
    | cons y k => simpa [xorBytes, BitVec.xor_assoc] using ih k (by simpa using h)

@[simp] theorem slice_length (s : ByteString) (i j : Nat) : (slice s i j).length = min j s.length - i := by
  simp [slice]

theorem byteAt_append_left (a b : ByteString) (i : Nat) (h : i < a.length) : byteAt (a ++ b) i = byteAt a i := by
  simp [byteAt, List.getD, List.getElem?_append_left h]

theorem byteAt_append_right (a b : ByteString) (i : Nat) (h : a.length ≤ i) :
    byteAt (a ++ b) i = byteAt b (i - a.length) := by
  simp [byteAt, List.getD, List.getElem?_append_right h]

theorem byteAt_of_length_le (s : ByteString) (i : Nat) (h : s.length ≤ i) : byteAt s i = 0 := by
  simp [byteAt, List.getD, List.getElem?_eq_none h]

@[simp] theorem byteAt_zeros (k i : Nat) : byteAt (zeros k) i = 0 := by
  unfold byteAt zeros
  by_cases h : i < k <;> simp [List.getD, h]

theorem intBE_append_singleton (s : ByteString) (b : Byte) : intBE (s ++ [b]) = 256 * intBE s + b.toNat := by
  simp [intBE, List.foldl_append]

theorem foldl_intBE (s : ByteString) (acc : Nat) :
    s.foldl (fun acc (b : Byte) => 256 * acc + b.toNat) acc = acc * 256 ^ s.length + intBE s := by
  induction s generalizing acc with
  | nil => simp [intBE]
  | cons b s ih =>
    have h := ih (256 * 0 + b.toNat)
    simp only [intBE, List.foldl_cons, List.length_cons]
    rw [ih, h]
    ring

theorem intBE_cons (b : Byte) (s : ByteString) : intBE (b :: s) = b.toNat * 256 ^ s.length + intBE s := by
  have h := foldl_intBE s (256 * 0 + b.toNat)
  simpa [intBE] using h

/-- Big-endian encoding and decoding agree on what `k` bytes hold. -/
theorem intBE_beBytes (k v : Nat) : intBE (beBytes k v) = v % 256 ^ k := by
  induction k with
  | zero => simp [beBytes, intBE, Nat.mod_one]
  | succ k ih =>
    have h : v % 256 ^ (k + 1) = v % 256 ^ k + 256 ^ k * (v / 256 ^ k % 256) := by rw [pow_succ, Nat.mod_mul]
    rw [beBytes, intBE_cons, ih, beBytes_length, BitVec.toNat_ofNat, h]
    ring

theorem intLE_leBytes (k v : Nat) : intLE (leBytes k v) = v % 256 ^ k := by
  induction k generalizing v with
  | zero => simp [leBytes, intLE, Nat.mod_one]
  | succ k ih =>
    have h : v % 256 ^ (k + 1) = v % 256 + 256 * (v / 256 % 256 ^ k) := by rw [pow_succ', Nat.mod_mul]
    rw [leBytes, intLE, ih, BitVec.toNat_ofNat, h]

theorem intBE_lt (s : ByteString) : intBE s < 256 ^ s.length := by
  induction s with
  | nil => simp [intBE]
  | cons b s ih =>
    rw [intBE_cons, List.length_cons, pow_succ]
    have := b.isLt
    nlinarith

theorem takeBlocks_length (n k : Nat) (s : ByteString) : (takeBlocks n k s).length = k := by
  induction k generalizing s with
  | zero => rfl
  | succ k ih => simp [takeBlocks, ih]

/-- Every block of a string whose length is at least `k * n` has `n` bytes. -/
theorem takeBlocks_block_length (n k : Nat) (s : ByteString) (h : k * n ≤ s.length) :
    ∀ b ∈ takeBlocks n k s, b.length = n := by
  induction k generalizing s with
  | zero => simp [takeBlocks]
  | succ k ih =>
    rw [Nat.succ_mul] at h
    intro b hb
    simp only [takeBlocks, List.mem_cons] at hb
    rcases hb with rfl | hb
    · simp; omega
    · exact ih (s.drop n) (by simp; omega) b hb

end Sys2Proof.Machine
end

