-- ==== Sys2Proof/Laws/Memory.lean ====
section
/-! SUPPORT. The laws of the buffers' memory: what a read gives after a write, and that every operation keeps the
canonical form. -/

namespace Sys2Proof.Machine

/-! ### Reads after writes -/

@[simp] theorem Memory.read_nil (a : Nat) : read [] a = 0 := rfl

theorem Memory.read_cons (k : Nat) (v : Byte) (m : Memory) (a : Nat) :
    read ((k, v) :: m) a = if a = k then v else read m a := rfl

/-- A write leaves every other offset alone, whatever the list looks like. -/
theorem Memory.read_write_of_ne (m : Memory) (a : Nat) (b : Byte) {a' : Nat} (h : a' ≠ a) :
    read (write m a b) a' = read m a' := by
  induction m with
  | nil => simp only [write]; split_ifs <;> simp_all [read_cons]
  | cons c m ih =>
    obtain ⟨k, v⟩ := c
    simp only [write]
    split_ifs <;> simp_all [read_cons]

/-- The offset is listed nowhere. -/
def Memory.absent (m : Memory) (a : Nat) : Prop := ∀ c ∈ m, c.1 ≠ a

theorem Memory.read_of_absent (m : Memory) (a : Nat) (h : absent m a) : read m a = 0 := by
  induction m with
  | nil => rfl
  | cons c m ih =>
    have h0 := h c (by simp)
    have h1 : absent m a := fun c hc => h c (by simp [hc])
    obtain ⟨k, v⟩ := c
    simp [read_cons, Ne.symm h0, ih h1]

/-- A read after a write to the same offset gives the byte, if the offset was not listed before. -/
theorem Memory.read_write_self_of_absent (m : Memory) (a : Nat) (b : Byte) (h : absent m a) : read (write m a b) a = b := by
  induction m with
  | nil => simp only [write]; split_ifs <;> simp_all [read_cons]
  | cons c m ih =>
    have h0 := h c (by simp)
    have h1 : absent m a := fun c hc => h c (by simp [hc])
    have h2 := read_of_absent m a h1
    obtain ⟨k, v⟩ := c
    simp only [write]
    split_ifs <;> simp_all [read_cons, Ne.symm h0]

/-- What a write leaves listed was listed before, or is the pair written. -/
theorem Memory.mem_write (m : Memory) (a : Nat) (b : Byte) (c : Host.Cell) (hc : c ∈ write m a b) :
    c ∈ m ∨ c = (a, b) := by
  induction m with
  | nil => revert hc; simp only [write]; split_ifs <;> simp_all
  | cons d m ih =>
    obtain ⟨k, v⟩ := d
    revert hc
    simp only [write]
    split_ifs <;> simp only [List.mem_cons] <;> tauto

/-- What a byte string's write leaves listed was listed before, or lies in the written range. -/
theorem Memory.mem_writeBytes (m : Memory) (a : Nat) (s : ByteString) (c : Host.Cell) (hc : c ∈ writeBytes m a s) :
    c ∈ m ∨ (a ≤ c.1 ∧ c.1 < a + s.length) := by
  induction s generalizing m a with
  | nil => exact .inl hc
  | cons b s ih =>
    rw [List.length_cons]
    rcases ih (write m a b) (a + 1) hc with h | h
    · rcases mem_write m a b c h with h | rfl
      · exact .inl h
      · exact .inr ⟨Nat.le_refl _, by simp⟩
    · exact .inr (by omega)

theorem Memory.absent_write (m : Memory) (a a' : Nat) (b : Byte) (h : absent m a') (hne : a' ≠ a) :
    absent (write m a b) a' := by
  intro c hc
  rcases mem_write m a b c hc with hc | rfl
  · exact h c hc
  · exact Ne.symm hne

theorem Memory.absent_clear (m : Memory) (a n i : Nat) (h1 : a ≤ i) (h2 : i < a + n) : absent (clear m a n) i := by
  intro c hc
  simp only [clear, List.mem_filter, Bool.or_eq_true, decide_eq_true_eq] at hc
  omega

theorem Memory.read_clear_of_outside (m : Memory) (a n i : Nat) (h : i < a ∨ a + n ≤ i) : read (clear m a n) i = read m i := by
  induction m with
  | nil => rfl
  | cons c m ih =>
    obtain ⟨k, v⟩ := c
    unfold clear at ih ⊢
    rw [List.filter_cons]
    split_ifs with hk
    · simp [read_cons, ih]
    · have : i ≠ k := by rintro rfl; simp at hk; omega
      simp [read_cons, ih, this]

@[simp] theorem Memory.readBytes_length (m : Memory) (a n : Nat) : (readBytes m a n).length = n := by
  induction n generalizing a with
  | zero => rfl
  | succ n ih => simp [readBytes, ih]

theorem Memory.readBytes_congr (m m' : Memory) (a n : Nat) (h : ∀ i, a ≤ i → i < a + n → read m i = read m' i) :
    readBytes m a n = readBytes m' a n := by
  induction n generalizing a with
  | zero => rfl
  | succ n ih =>
    simp only [readBytes]
    rw [h a (by omega) (by omega), ih (a + 1) fun i h1 h2 => h i (by omega) (by omega)]

theorem Memory.byteAt_readBytes (m : Memory) (a n i : Nat) (h : i < n) : byteAt (readBytes m a n) i = read m (a + i) := by
  induction n generalizing a i with
  | zero => omega
  | succ n ih =>
    cases i with
    | zero => rfl
    | succ i =>
      have := ih (a + 1) i (by omega)
      simpa [readBytes, byteAt, Nat.add_assoc, Nat.add_comm 1 i] using this

/-- A byte string's write leaves every offset outside it alone. -/
theorem Memory.read_writeBytes_of_outside (m : Memory) (a : Nat) (s : ByteString) (i : Nat)
    (h : i < a ∨ a + s.length ≤ i) : read (writeBytes m a s) i = read m i := by
  induction s generalizing m a with
  | nil => rfl
  | cons b s ih =>
    simp only [List.length_cons] at h
    rw [writeBytes, ih (write m a b) (a + 1) (by omega), read_write_of_ne m a b (by omega)]

theorem Memory.absent_writeBytes (m : Memory) (a : Nat) (s : ByteString) (i : Nat) (hm : absent m i)
    (h : i < a ∨ a + s.length ≤ i) : absent (writeBytes m a s) i := by
  induction s generalizing m a with
  | nil => exact hm
  | cons b s ih =>
    simp only [List.length_cons] at h
    exact ih (write m a b) (a + 1) (absent_write m a i b hm (by omega)) (by omega)

/-- What is read back after a byte string is written over offsets that were not listed. -/
theorem Memory.readBytes_writeBytes_of_absent (m : Memory) (a n : Nat) (s : ByteString) (hs : s.length ≤ n)
    (h : ∀ i, a ≤ i → i < a + n → absent m i) :
    readBytes (writeBytes m a s) a n = s ++ zeros (n - s.length) := by
  induction s generalizing m a n with
  | nil =>
    simp only [writeBytes, List.length_nil, Nat.sub_zero, List.nil_append]
    clear hs
    induction n generalizing a with
    | zero => rfl
    | succ n ih =>
      rw [readBytes, zeros_succ, read_of_absent m a (h a (by omega) (by omega)),
        ih (a + 1) fun i h1 h2 => h i (by omega) (by omega)]
  | cons b s ih =>
    cases n with
    | zero => simp at hs
    | succ n =>
      have hs' : s.length ≤ n := by simpa using hs
      rw [writeBytes, readBytes, read_writeBytes_of_outside _ _ _ _ (by omega),
        read_write_self_of_absent m a b (h a (by omega) (by omega)),
        ih (write m a b) (a + 1) n hs' fun i h1 h2 =>
          absent_write m a i b (h i (by omega) (by omega)) (by omega)]
      simp

/-! ### The canonical form -/

theorem Memory.risingFrom_mono {lo lo' : Nat} (h : lo ≤ lo') (m : Memory) (hm : risingFrom lo' m = true) :
    risingFrom lo m = true := by
  cases m with
  | nil => rfl
  | cons c m =>
    obtain ⟨k, v⟩ := c
    simp only [risingFrom, Bool.and_eq_true, decide_eq_true_eq] at hm ⊢
    exact ⟨⟨by omega, hm.1.2⟩, hm.2⟩

theorem Memory.risingFrom_write (lo : Nat) (m : Memory) (a : Nat) (b : Byte) (ha : lo ≤ a) (hm : risingFrom lo m = true) :
    risingFrom lo (write m a b) = true := by
  induction m generalizing lo with
  | nil => simp only [write]; split_ifs <;> simp_all [risingFrom]
  | cons c m ih =>
    obtain ⟨k, v⟩ := c
    have hm0 := hm
    simp only [risingFrom, Bool.and_eq_true, decide_eq_true_eq] at hm
    obtain ⟨⟨h1, h2⟩, h3⟩ := hm
    simp only [write]
    split_ifs with hak hb hk hb
    · exact hm0
    · simp only [risingFrom, Bool.and_eq_true, decide_eq_true_eq]
      exact ⟨⟨ha, by simpa using hb⟩, ⟨by omega, h2⟩, h3⟩
    · exact risingFrom_mono (by omega) m h3
    · simp only [risingFrom, Bool.and_eq_true, decide_eq_true_eq]
      exact ⟨⟨ha, by simpa using hb⟩, by rw [hk]; exact h3⟩
    · simp only [risingFrom, Bool.and_eq_true, decide_eq_true_eq]
      exact ⟨⟨h1, h2⟩, ih (k + 1) (by omega) h3⟩

/-- A write keeps the canonical form. -/
theorem Memory.wf_write (m : Memory) (a : Nat) (b : Byte) (hm : wf m = true) : wf (write m a b) = true :=
  risingFrom_write 0 m a b (Nat.zero_le a) hm

/-- A byte string's write keeps the canonical form. -/
theorem Memory.wf_writeBytes (m : Memory) (a : Nat) (s : ByteString) (hm : wf m = true) : wf (writeBytes m a s) = true := by
  induction s generalizing m a with
  | nil => exact hm
  | cons b s ih => exact ih (write m a b) (a + 1) (wf_write m a b hm)

theorem Memory.risingFrom_filter (p : Host.Cell → Bool) (lo : Nat) (m : Memory) (hm : risingFrom lo m = true) :
    risingFrom lo (m.filter p) = true := by
  induction m generalizing lo with
  | nil => rfl
  | cons c m ih =>
    obtain ⟨k, v⟩ := c
    simp only [risingFrom, Bool.and_eq_true, decide_eq_true_eq] at hm
    rw [List.filter_cons]
    split_ifs
    · simp only [risingFrom, Bool.and_eq_true, decide_eq_true_eq]
      exact ⟨hm.1, ih (k + 1) hm.2⟩
    · exact ih lo (risingFrom_mono (by omega) m hm.2)

/-- Clearing a range keeps the canonical form. -/
theorem Memory.wf_clear (m : Memory) (a n : Nat) (hm : wf m = true) : wf (clear m a n) = true :=
  risingFrom_filter _ 0 m hm

theorem Memory.absent_of_risingFrom (lo a : Nat) (m : Memory) (h : a < lo) (hm : risingFrom lo m = true) : absent m a := by
  induction m generalizing lo with
  | nil => simp [absent]
  | cons c m ih =>
    obtain ⟨k, v⟩ := c
    simp only [risingFrom, Bool.and_eq_true, decide_eq_true_eq] at hm
    intro c hc
    rcases List.mem_cons.1 hc with rfl | hc
    · simp; omega
    · exact ih (k + 1) (by omega) hm.2 c hc

/-- In canonical form a read after a write to the same offset gives the byte. -/
theorem Memory.read_write_self (m : Memory) (a : Nat) (b : Byte) (hm : wf m = true) : read (write m a b) a = b := by
  unfold wf at hm
  generalize 0 = lo at hm
  induction m generalizing lo with
  | nil => simp only [write]; split_ifs <;> simp_all [read_cons]
  | cons c m ih =>
    obtain ⟨k, v⟩ := c
    simp only [risingFrom, Bool.and_eq_true, decide_eq_true_eq] at hm
    simp only [write]
    split_ifs with h1 h2 h2 h3
    · rw [read_cons, if_neg (by omega),
        read_of_absent m a (absent_of_risingFrom (k + 1) a m (by omega) hm.2)]
      exact h2.symm
    · simp [read_cons]
    · rw [read_of_absent m a (absent_of_risingFrom (k + 1) a m (by omega) hm.2)]
      exact h3.symm
    · simp [read_cons]
    · rw [read_cons, if_neg h2, ih (k + 1) hm.2]

/-- What is read back after a byte string is written, in canonical form. -/
theorem Memory.readBytes_writeBytes (m : Memory) (a : Nat) (s : ByteString) (hm : wf m = true) :
    readBytes (writeBytes m a s) a s.length = s := by
  induction s generalizing m a with
  | nil => rfl
  | cons b s ih =>
    rw [writeBytes, List.length_cons, readBytes, read_writeBytes_of_outside _ _ _ _ (by omega),
      read_write_self m a b hm, ih (write m a b) (a + 1) (wf_write m a b hm)]

/-- Equal reads make equal data, in canonical form. -/
theorem Memory.eq_of_read_eq (m m' : Memory) (hm : wf m = true) (hm' : wf m' = true) (h : ∀ a, read m a = read m' a) :
    m = m' := by
  unfold wf at hm hm'
  generalize 0 = lo at hm hm'
  induction m generalizing lo m' with
  | nil =>
    cases m' with
    | nil => rfl
    | cons c m' =>
      obtain ⟨k, v⟩ := c
      simp only [risingFrom, Bool.and_eq_true, decide_eq_true_eq] at hm'
      have := h k
      simp only [read_nil, read_cons, if_true] at this
      rw [← this] at hm'
      simp at hm'
  | cons c m ih =>
    obtain ⟨k, v⟩ := c
    simp only [risingFrom, Bool.and_eq_true, decide_eq_true_eq] at hm
    cases m' with
    | nil =>
      have := h k
      simp only [read_nil, read_cons, if_true] at this
      rw [this] at hm
      simp at hm
    | cons c' m' =>
      obtain ⟨k', v'⟩ := c'
      simp only [risingFrom, Bool.and_eq_true, decide_eq_true_eq] at hm'
      have hk : k = k' := by
        rcases Nat.lt_trichotomy k k' with hlt | heq | hgt
        · exfalso
          have := h k
          rw [read_cons, if_pos rfl, read_cons, if_neg (by omega),
            read_of_absent m' k (absent_of_risingFrom (k' + 1) k m' (by omega) hm'.2)] at this
          rw [this] at hm; simp at hm
        · exact heq
        · exfalso
          have := h k'
          rw [read_cons, if_neg (by omega), read_cons, if_pos rfl,
            read_of_absent m k' (absent_of_risingFrom (k + 1) k' m (by omega) hm.2)] at this
          rw [← this] at hm'; simp at hm'
      subst hk
      have hv : v = v' := by simpa [read_cons] using h k
      subst hv
      have htail : ∀ a, read m a = read m' a := fun a => ?_
      rw [ih m' htail (k + 1) hm.2 hm'.2]
      by_cases hak : a = k
      · subst hak
        rw [read_of_absent m a (absent_of_risingFrom (a + 1) a m (by omega) hm.2),
          read_of_absent m' a (absent_of_risingFrom (a + 1) a m' (by omega) hm'.2)]
      · simpa [read_cons, hak] using h a

end Sys2Proof.Machine
end

