-- ==== Sys2Proof/Laws/State.lean ====
section
/-! SUPPORT. One lemma per field per update of the state, so that no proof unfolds a record update. -/

namespace Sys2Proof.Machine

/-! ### `State.fillBuf`: one buffer's bytes -/

@[simp] theorem State.fillBuf_ctrl (s : State) (b : Buffer) (r : ByteString) : (s.fillBuf b r).ctrl = s.ctrl := rfl
@[simp] theorem State.fillBuf_result (s : State) (b : Buffer) (r : ByteString) :
    (s.fillBuf b r).result = s.result := rfl
@[simp] theorem State.fillBuf_irqEn (s : State) (b : Buffer) (r : ByteString) : (s.fillBuf b r).irqEn = s.irqEn := rfl
@[simp] theorem State.fillBuf_irqStat (s : State) (b : Buffer) (r : ByteString) :
    (s.fillBuf b r).irqStat = s.irqStat := rfl
@[simp] theorem State.fillBuf_aadLen (s : State) (b : Buffer) (r : ByteString) :
    (s.fillBuf b r).aadLen = s.aadLen := rfl
@[simp] theorem State.fillBuf_inLen (s : State) (b : Buffer) (r : ByteString) : (s.fillBuf b r).inLen = s.inLen := rfl
@[simp] theorem State.fillBuf_outLen (s : State) (b : Buffer) (r : ByteString) :
    (s.fillBuf b r).outLen = s.outLen := rfl
@[simp] theorem State.fillBuf_saltLen (s : State) (b : Buffer) (r : ByteString) :
    (s.fillBuf b r).saltLen = s.saltLen := rfl
@[simp] theorem State.fillBuf_ikmLen (s : State) (b : Buffer) (r : ByteString) :
    (s.fillBuf b r).ikmLen = s.ikmLen := rfl
@[simp] theorem State.fillBuf_privLen (s : State) (b : Buffer) (r : ByteString) :
    (s.fillBuf b r).privLen = s.privLen := rfl
@[simp] theorem State.fillBuf_counter (s : State) (b : Buffer) (r : ByteString) :
    (s.fillBuf b r).counter = s.counter := rfl
@[simp] theorem State.fillBuf_rxCtrHi (s : State) (b : Buffer) (r : ByteString) :
    (s.fillBuf b r).rxCtrHi = s.rxCtrHi := rfl
@[simp] theorem State.fillBuf_rxCounter (s : State) (b : Buffer) (r : ByteString) :
    (s.fillBuf b r).rxCounter = s.rxCounter := rfl
@[simp] theorem State.fillBuf_rxSize (s : State) (b : Buffer) (r : ByteString) :
    (s.fillBuf b r).rxSize = s.rxSize := rfl
@[simp] theorem State.fillBuf_crcResult (s : State) (b : Buffer) (r : ByteString) :
    (s.fillBuf b r).crcResult = s.crcResult := rfl
@[simp] theorem State.fillBuf_pad (s : State) (b : Buffer) (r : ByteString) : (s.fillBuf b r).pad = s.pad := rfl
@[simp] theorem State.fillBuf_iv (s : State) (b : Buffer) (r : ByteString) : (s.fillBuf b r).iv = s.iv := rfl
theorem State.fillBuf_mem (s : State) (b : Buffer) (r : ByteString) :
    (s.fillBuf b r).mem = Memory.writeBytes (Memory.clear s.mem b.base b.size) b.base (r.take b.size) := rfl
@[simp] theorem State.fillBuf_d (s : State) (b : Buffer) (r : ByteString) : (s.fillBuf b r).d = s.d := rfl
@[simp] theorem State.fillBuf_dValid (s : State) (b : Buffer) (r : ByteString) :
    (s.fillBuf b r).dValid = s.dValid := rfl
@[simp] theorem State.fillBuf_peerValid (s : State) (b : Buffer) (r : ByteString) :
    (s.fillBuf b r).peerValid = s.peerValid := rfl
@[simp] theorem State.fillBuf_sharedValid (s : State) (b : Buffer) (r : ByteString) :
    (s.fillBuf b r).sharedValid = s.sharedValid := rfl
@[simp] theorem State.fillBuf_fsm (s : State) (b : Buffer) (r : ByteString) : (s.fillBuf b r).fsm = s.fsm := rfl
@[simp] theorem State.fillBuf_schedule (s : State) (b : Buffer) (r : ByteString) :
    (s.fillBuf b r).schedule = s.schedule := rfl
@[simp] theorem State.fillBuf_hostProgram (s : State) (b : Buffer) (r : ByteString) :
    (s.fillBuf b r).hostProgram = s.hostProgram := rfl
@[simp] theorem State.fillBuf_busLog (s : State) (b : Buffer) (r : ByteString) :
    (s.fillBuf b r).busLog = s.busLog := rfl
@[simp] theorem State.fillBuf_entropy (s : State) (b : Buffer) (r : ByteString) :
    (s.fillBuf b r).entropy = s.entropy := rfl
@[simp] theorem State.fillBuf_draws (s : State) (b : Buffer) (r : ByteString) : (s.fillBuf b r).draws = s.draws := rfl

/-! ### `State.finish`: RESULT, IRQ_STAT and FSM (R404) -/

@[simp] theorem State.finish_ctrl (s : State) (op : BitVec 8) (err : ErrCode) : (s.finish op err).ctrl = s.ctrl := rfl
@[simp] theorem State.finish_result (s : State) (op : BitVec 8) (err : ErrCode) :
    (s.finish op err).result = resultWord op err := rfl
@[simp] theorem State.finish_irqEn (s : State) (op : BitVec 8) (err : ErrCode) :
    (s.finish op err).irqEn = s.irqEn := rfl
@[simp] theorem State.finish_irqStat (s : State) (op : BitVec 8) (err : ErrCode) :
    (s.finish op err).irqStat = irqStatAfter s.irqStat err := rfl
@[simp] theorem State.finish_aadLen (s : State) (op : BitVec 8) (err : ErrCode) :
    (s.finish op err).aadLen = s.aadLen := rfl
@[simp] theorem State.finish_inLen (s : State) (op : BitVec 8) (err : ErrCode) :
    (s.finish op err).inLen = s.inLen := rfl
@[simp] theorem State.finish_outLen (s : State) (op : BitVec 8) (err : ErrCode) :
    (s.finish op err).outLen = s.outLen := rfl
@[simp] theorem State.finish_saltLen (s : State) (op : BitVec 8) (err : ErrCode) :
    (s.finish op err).saltLen = s.saltLen := rfl
@[simp] theorem State.finish_ikmLen (s : State) (op : BitVec 8) (err : ErrCode) :
    (s.finish op err).ikmLen = s.ikmLen := rfl
@[simp] theorem State.finish_privLen (s : State) (op : BitVec 8) (err : ErrCode) :
    (s.finish op err).privLen = s.privLen := rfl
@[simp] theorem State.finish_counter (s : State) (op : BitVec 8) (err : ErrCode) :
    (s.finish op err).counter = s.counter := rfl
@[simp] theorem State.finish_rxCtrHi (s : State) (op : BitVec 8) (err : ErrCode) :
    (s.finish op err).rxCtrHi = s.rxCtrHi := rfl
@[simp] theorem State.finish_rxCounter (s : State) (op : BitVec 8) (err : ErrCode) :
    (s.finish op err).rxCounter = s.rxCounter := rfl
@[simp] theorem State.finish_rxSize (s : State) (op : BitVec 8) (err : ErrCode) :
    (s.finish op err).rxSize = s.rxSize := rfl
@[simp] theorem State.finish_crcResult (s : State) (op : BitVec 8) (err : ErrCode) :
    (s.finish op err).crcResult = s.crcResult := rfl
@[simp] theorem State.finish_pad (s : State) (op : BitVec 8) (err : ErrCode) : (s.finish op err).pad = s.pad := rfl
@[simp] theorem State.finish_iv (s : State) (op : BitVec 8) (err : ErrCode) : (s.finish op err).iv = s.iv := rfl
@[simp] theorem State.finish_mem (s : State) (op : BitVec 8) (err : ErrCode) : (s.finish op err).mem = s.mem := rfl
@[simp] theorem State.finish_d (s : State) (op : BitVec 8) (err : ErrCode) : (s.finish op err).d = s.d := rfl
@[simp] theorem State.finish_dValid (s : State) (op : BitVec 8) (err : ErrCode) :
    (s.finish op err).dValid = s.dValid := rfl
@[simp] theorem State.finish_peerValid (s : State) (op : BitVec 8) (err : ErrCode) :
    (s.finish op err).peerValid = s.peerValid := rfl
@[simp] theorem State.finish_sharedValid (s : State) (op : BitVec 8) (err : ErrCode) :
    (s.finish op err).sharedValid = s.sharedValid := rfl
@[simp] theorem State.finish_fsm (s : State) (op : BitVec 8) (err : ErrCode) : (s.finish op err).fsm = .idle := rfl
@[simp] theorem State.finish_schedule (s : State) (op : BitVec 8) (err : ErrCode) :
    (s.finish op err).schedule = s.schedule := rfl
@[simp] theorem State.finish_hostProgram (s : State) (op : BitVec 8) (err : ErrCode) :
    (s.finish op err).hostProgram = s.hostProgram := rfl
@[simp] theorem State.finish_busLog (s : State) (op : BitVec 8) (err : ErrCode) :
    (s.finish op err).busLog = s.busLog := rfl
@[simp] theorem State.finish_entropy (s : State) (op : BitVec 8) (err : ErrCode) :
    (s.finish op err).entropy = s.entropy := rfl
@[simp] theorem State.finish_draws (s : State) (op : BitVec 8) (err : ErrCode) :
    (s.finish op err).draws = s.draws := rfl

/-! ### `State.afterDraw`: one answer of the entropy source used up (R923) -/

@[simp] theorem State.afterDraw_ctrl (s : State) : s.afterDraw.ctrl = s.ctrl := rfl
@[simp] theorem State.afterDraw_result (s : State) : s.afterDraw.result = s.result := rfl
@[simp] theorem State.afterDraw_irqEn (s : State) : s.afterDraw.irqEn = s.irqEn := rfl
@[simp] theorem State.afterDraw_irqStat (s : State) : s.afterDraw.irqStat = s.irqStat := rfl
@[simp] theorem State.afterDraw_aadLen (s : State) : s.afterDraw.aadLen = s.aadLen := rfl
@[simp] theorem State.afterDraw_inLen (s : State) : s.afterDraw.inLen = s.inLen := rfl
@[simp] theorem State.afterDraw_outLen (s : State) : s.afterDraw.outLen = s.outLen := rfl
@[simp] theorem State.afterDraw_saltLen (s : State) : s.afterDraw.saltLen = s.saltLen := rfl
@[simp] theorem State.afterDraw_ikmLen (s : State) : s.afterDraw.ikmLen = s.ikmLen := rfl
@[simp] theorem State.afterDraw_privLen (s : State) : s.afterDraw.privLen = s.privLen := rfl
@[simp] theorem State.afterDraw_counter (s : State) : s.afterDraw.counter = s.counter := rfl
@[simp] theorem State.afterDraw_rxCtrHi (s : State) : s.afterDraw.rxCtrHi = s.rxCtrHi := rfl
@[simp] theorem State.afterDraw_rxCounter (s : State) : s.afterDraw.rxCounter = s.rxCounter := rfl
@[simp] theorem State.afterDraw_rxSize (s : State) : s.afterDraw.rxSize = s.rxSize := rfl
@[simp] theorem State.afterDraw_crcResult (s : State) : s.afterDraw.crcResult = s.crcResult := rfl
@[simp] theorem State.afterDraw_pad (s : State) : s.afterDraw.pad = s.pad := rfl
@[simp] theorem State.afterDraw_iv (s : State) : s.afterDraw.iv = s.iv := rfl
@[simp] theorem State.afterDraw_mem (s : State) : s.afterDraw.mem = s.mem := rfl
@[simp] theorem State.afterDraw_d (s : State) : s.afterDraw.d = s.d := rfl
@[simp] theorem State.afterDraw_dValid (s : State) : s.afterDraw.dValid = s.dValid := rfl
@[simp] theorem State.afterDraw_peerValid (s : State) : s.afterDraw.peerValid = s.peerValid := rfl
@[simp] theorem State.afterDraw_sharedValid (s : State) : s.afterDraw.sharedValid = s.sharedValid := rfl
@[simp] theorem State.afterDraw_fsm (s : State) : s.afterDraw.fsm = s.fsm := rfl
@[simp] theorem State.afterDraw_schedule (s : State) : s.afterDraw.schedule = s.schedule := rfl
@[simp] theorem State.afterDraw_hostProgram (s : State) : s.afterDraw.hostProgram = s.hostProgram := rfl
@[simp] theorem State.afterDraw_busLog (s : State) : s.afterDraw.busLog = s.busLog := rfl
@[simp] theorem State.afterDraw_entropy (s : State) : s.afterDraw.entropy = s.entropy.tail := rfl
@[simp] theorem State.afterDraw_draws (s : State) :
    s.afterDraw.draws = s.draws + (if s.entropy.isEmpty then 1 else 0) := rfl

/-! ### `State.setOut`: OUT and OUT_LEN (R409) -/

@[simp] theorem State.setOut_ctrl (s : State) (r : ByteString) : (s.setOut r).ctrl = s.ctrl := rfl
@[simp] theorem State.setOut_result (s : State) (r : ByteString) : (s.setOut r).result = s.result := rfl
@[simp] theorem State.setOut_irqEn (s : State) (r : ByteString) : (s.setOut r).irqEn = s.irqEn := rfl
@[simp] theorem State.setOut_irqStat (s : State) (r : ByteString) : (s.setOut r).irqStat = s.irqStat := rfl
@[simp] theorem State.setOut_aadLen (s : State) (r : ByteString) : (s.setOut r).aadLen = s.aadLen := rfl
@[simp] theorem State.setOut_inLen (s : State) (r : ByteString) : (s.setOut r).inLen = s.inLen := rfl
@[simp] theorem State.setOut_outLen (s : State) (r : ByteString) :
    (s.setOut r).outLen = BitVec.ofNat 16 r.length := rfl
@[simp] theorem State.setOut_saltLen (s : State) (r : ByteString) : (s.setOut r).saltLen = s.saltLen := rfl
@[simp] theorem State.setOut_ikmLen (s : State) (r : ByteString) : (s.setOut r).ikmLen = s.ikmLen := rfl
@[simp] theorem State.setOut_privLen (s : State) (r : ByteString) : (s.setOut r).privLen = s.privLen := rfl
@[simp] theorem State.setOut_counter (s : State) (r : ByteString) : (s.setOut r).counter = s.counter := rfl
@[simp] theorem State.setOut_rxCtrHi (s : State) (r : ByteString) : (s.setOut r).rxCtrHi = s.rxCtrHi := rfl
@[simp] theorem State.setOut_rxCounter (s : State) (r : ByteString) : (s.setOut r).rxCounter = s.rxCounter := rfl
@[simp] theorem State.setOut_rxSize (s : State) (r : ByteString) : (s.setOut r).rxSize = s.rxSize := rfl
@[simp] theorem State.setOut_crcResult (s : State) (r : ByteString) : (s.setOut r).crcResult = s.crcResult := rfl
@[simp] theorem State.setOut_pad (s : State) (r : ByteString) : (s.setOut r).pad = s.pad := rfl
@[simp] theorem State.setOut_iv (s : State) (r : ByteString) : (s.setOut r).iv = s.iv := rfl
@[simp] theorem State.setOut_mem (s : State) (r : ByteString) : (s.setOut r).mem = (s.fillBuf .output r).mem := rfl
@[simp] theorem State.setOut_d (s : State) (r : ByteString) : (s.setOut r).d = s.d := rfl
@[simp] theorem State.setOut_dValid (s : State) (r : ByteString) : (s.setOut r).dValid = s.dValid := rfl
@[simp] theorem State.setOut_peerValid (s : State) (r : ByteString) : (s.setOut r).peerValid = s.peerValid := rfl
@[simp] theorem State.setOut_sharedValid (s : State) (r : ByteString) :
    (s.setOut r).sharedValid = s.sharedValid := rfl
@[simp] theorem State.setOut_fsm (s : State) (r : ByteString) : (s.setOut r).fsm = s.fsm := rfl
@[simp] theorem State.setOut_schedule (s : State) (r : ByteString) : (s.setOut r).schedule = s.schedule := rfl
@[simp] theorem State.setOut_hostProgram (s : State) (r : ByteString) :
    (s.setOut r).hostProgram = s.hostProgram := rfl
@[simp] theorem State.setOut_busLog (s : State) (r : ByteString) : (s.setOut r).busLog = s.busLog := rfl
@[simp] theorem State.setOut_entropy (s : State) (r : ByteString) : (s.setOut r).entropy = s.entropy := rfl
@[simp] theorem State.setOut_draws (s : State) (r : ByteString) : (s.setOut r).draws = s.draws := rfl

/-! ### `State.succeedOut`: OUT, OUT_LEN and the completion (R409) -/

@[simp] theorem State.succeedOut_ctrl (s : State) (op : BitVec 8) (r : ByteString) :
    (s.succeedOut op r).ctrl = s.ctrl := rfl
@[simp] theorem State.succeedOut_result (s : State) (op : BitVec 8) (r : ByteString) :
    (s.succeedOut op r).result = resultWord op .ok := rfl
@[simp] theorem State.succeedOut_irqEn (s : State) (op : BitVec 8) (r : ByteString) :
    (s.succeedOut op r).irqEn = s.irqEn := rfl
@[simp] theorem State.succeedOut_irqStat (s : State) (op : BitVec 8) (r : ByteString) :
    (s.succeedOut op r).irqStat = irqStatAfter s.irqStat .ok := rfl
@[simp] theorem State.succeedOut_aadLen (s : State) (op : BitVec 8) (r : ByteString) :
    (s.succeedOut op r).aadLen = s.aadLen := rfl
@[simp] theorem State.succeedOut_inLen (s : State) (op : BitVec 8) (r : ByteString) :
    (s.succeedOut op r).inLen = s.inLen := rfl
@[simp] theorem State.succeedOut_outLen (s : State) (op : BitVec 8) (r : ByteString) :
    (s.succeedOut op r).outLen = BitVec.ofNat 16 r.length := rfl
@[simp] theorem State.succeedOut_saltLen (s : State) (op : BitVec 8) (r : ByteString) :
    (s.succeedOut op r).saltLen = s.saltLen := rfl
@[simp] theorem State.succeedOut_ikmLen (s : State) (op : BitVec 8) (r : ByteString) :
    (s.succeedOut op r).ikmLen = s.ikmLen := rfl
@[simp] theorem State.succeedOut_privLen (s : State) (op : BitVec 8) (r : ByteString) :
    (s.succeedOut op r).privLen = s.privLen := rfl
@[simp] theorem State.succeedOut_counter (s : State) (op : BitVec 8) (r : ByteString) :
    (s.succeedOut op r).counter = s.counter := rfl
@[simp] theorem State.succeedOut_rxCtrHi (s : State) (op : BitVec 8) (r : ByteString) :
    (s.succeedOut op r).rxCtrHi = s.rxCtrHi := rfl
@[simp] theorem State.succeedOut_rxCounter (s : State) (op : BitVec 8) (r : ByteString) :
    (s.succeedOut op r).rxCounter = s.rxCounter := rfl
@[simp] theorem State.succeedOut_rxSize (s : State) (op : BitVec 8) (r : ByteString) :
    (s.succeedOut op r).rxSize = s.rxSize := rfl
@[simp] theorem State.succeedOut_crcResult (s : State) (op : BitVec 8) (r : ByteString) :
    (s.succeedOut op r).crcResult = s.crcResult := rfl
@[simp] theorem State.succeedOut_pad (s : State) (op : BitVec 8) (r : ByteString) :
    (s.succeedOut op r).pad = s.pad := rfl
@[simp] theorem State.succeedOut_iv (s : State) (op : BitVec 8) (r : ByteString) :
    (s.succeedOut op r).iv = s.iv := rfl
@[simp] theorem State.succeedOut_mem (s : State) (op : BitVec 8) (r : ByteString) :
    (s.succeedOut op r).mem = (s.fillBuf .output r).mem := rfl
@[simp] theorem State.succeedOut_d (s : State) (op : BitVec 8) (r : ByteString) : (s.succeedOut op r).d = s.d := rfl
@[simp] theorem State.succeedOut_dValid (s : State) (op : BitVec 8) (r : ByteString) :
    (s.succeedOut op r).dValid = s.dValid := rfl
@[simp] theorem State.succeedOut_peerValid (s : State) (op : BitVec 8) (r : ByteString) :
    (s.succeedOut op r).peerValid = s.peerValid := rfl
@[simp] theorem State.succeedOut_sharedValid (s : State) (op : BitVec 8) (r : ByteString) :
    (s.succeedOut op r).sharedValid = s.sharedValid := rfl
@[simp] theorem State.succeedOut_fsm (s : State) (op : BitVec 8) (r : ByteString) :
    (s.succeedOut op r).fsm = .idle := rfl
@[simp] theorem State.succeedOut_schedule (s : State) (op : BitVec 8) (r : ByteString) :
    (s.succeedOut op r).schedule = s.schedule := rfl
@[simp] theorem State.succeedOut_hostProgram (s : State) (op : BitVec 8) (r : ByteString) :
    (s.succeedOut op r).hostProgram = s.hostProgram := rfl
@[simp] theorem State.succeedOut_busLog (s : State) (op : BitVec 8) (r : ByteString) :
    (s.succeedOut op r).busLog = s.busLog := rfl
@[simp] theorem State.succeedOut_entropy (s : State) (op : BitVec 8) (r : ByteString) :
    (s.succeedOut op r).entropy = s.entropy := rfl
@[simp] theorem State.succeedOut_draws (s : State) (op : BitVec 8) (r : ByteString) :
    (s.succeedOut op r).draws = s.draws := rfl

/-! ### `State.failOut`: OUT, OUT_LEN and the completion (R410) -/

@[simp] theorem State.failOut_ctrl (s : State) (op : BitVec 8) (err : ErrCode) :
    (s.failOut op err).ctrl = s.ctrl := rfl
@[simp] theorem State.failOut_result (s : State) (op : BitVec 8) (err : ErrCode) :
    (s.failOut op err).result = resultWord op err := rfl
@[simp] theorem State.failOut_irqEn (s : State) (op : BitVec 8) (err : ErrCode) :
    (s.failOut op err).irqEn = s.irqEn := rfl
@[simp] theorem State.failOut_irqStat (s : State) (op : BitVec 8) (err : ErrCode) :
    (s.failOut op err).irqStat = irqStatAfter s.irqStat err := rfl
@[simp] theorem State.failOut_aadLen (s : State) (op : BitVec 8) (err : ErrCode) :
    (s.failOut op err).aadLen = s.aadLen := rfl
@[simp] theorem State.failOut_inLen (s : State) (op : BitVec 8) (err : ErrCode) :
    (s.failOut op err).inLen = s.inLen := rfl
@[simp] theorem State.failOut_outLen (s : State) (op : BitVec 8) (err : ErrCode) :
    (s.failOut op err).outLen = 0 := rfl
@[simp] theorem State.failOut_saltLen (s : State) (op : BitVec 8) (err : ErrCode) :
    (s.failOut op err).saltLen = s.saltLen := rfl
@[simp] theorem State.failOut_ikmLen (s : State) (op : BitVec 8) (err : ErrCode) :
    (s.failOut op err).ikmLen = s.ikmLen := rfl
@[simp] theorem State.failOut_privLen (s : State) (op : BitVec 8) (err : ErrCode) :
    (s.failOut op err).privLen = s.privLen := rfl
@[simp] theorem State.failOut_counter (s : State) (op : BitVec 8) (err : ErrCode) :
    (s.failOut op err).counter = s.counter := rfl
@[simp] theorem State.failOut_rxCtrHi (s : State) (op : BitVec 8) (err : ErrCode) :
    (s.failOut op err).rxCtrHi = s.rxCtrHi := rfl
@[simp] theorem State.failOut_rxCounter (s : State) (op : BitVec 8) (err : ErrCode) :
    (s.failOut op err).rxCounter = s.rxCounter := rfl
@[simp] theorem State.failOut_rxSize (s : State) (op : BitVec 8) (err : ErrCode) :
    (s.failOut op err).rxSize = s.rxSize := rfl
@[simp] theorem State.failOut_crcResult (s : State) (op : BitVec 8) (err : ErrCode) :
    (s.failOut op err).crcResult = s.crcResult := rfl
@[simp] theorem State.failOut_pad (s : State) (op : BitVec 8) (err : ErrCode) : (s.failOut op err).pad = s.pad := rfl
@[simp] theorem State.failOut_iv (s : State) (op : BitVec 8) (err : ErrCode) : (s.failOut op err).iv = s.iv := rfl
@[simp] theorem State.failOut_mem (s : State) (op : BitVec 8) (err : ErrCode) :
    (s.failOut op err).mem = (s.fillBuf .output []).mem := rfl
@[simp] theorem State.failOut_d (s : State) (op : BitVec 8) (err : ErrCode) : (s.failOut op err).d = s.d := rfl
@[simp] theorem State.failOut_dValid (s : State) (op : BitVec 8) (err : ErrCode) :
    (s.failOut op err).dValid = s.dValid := rfl
@[simp] theorem State.failOut_peerValid (s : State) (op : BitVec 8) (err : ErrCode) :
    (s.failOut op err).peerValid = s.peerValid := rfl
@[simp] theorem State.failOut_sharedValid (s : State) (op : BitVec 8) (err : ErrCode) :
    (s.failOut op err).sharedValid = s.sharedValid := rfl
@[simp] theorem State.failOut_fsm (s : State) (op : BitVec 8) (err : ErrCode) : (s.failOut op err).fsm = .idle := rfl
@[simp] theorem State.failOut_schedule (s : State) (op : BitVec 8) (err : ErrCode) :
    (s.failOut op err).schedule = s.schedule := rfl
@[simp] theorem State.failOut_hostProgram (s : State) (op : BitVec 8) (err : ErrCode) :
    (s.failOut op err).hostProgram = s.hostProgram := rfl
@[simp] theorem State.failOut_busLog (s : State) (op : BitVec 8) (err : ErrCode) :
    (s.failOut op err).busLog = s.busLog := rfl
@[simp] theorem State.failOut_entropy (s : State) (op : BitVec 8) (err : ErrCode) :
    (s.failOut op err).entropy = s.entropy := rfl
@[simp] theorem State.failOut_draws (s : State) (op : BitVec 8) (err : ErrCode) :
    (s.failOut op err).draws = s.draws := rfl

/-! ### `State.setKeyPair`: D, D_VALID and PUB (R511) -/

@[simp] theorem State.setKeyPair_ctrl (s : State) (d : Nat) : (s.setKeyPair d).ctrl = s.ctrl := rfl
@[simp] theorem State.setKeyPair_result (s : State) (d : Nat) : (s.setKeyPair d).result = s.result := rfl
@[simp] theorem State.setKeyPair_irqEn (s : State) (d : Nat) : (s.setKeyPair d).irqEn = s.irqEn := rfl
@[simp] theorem State.setKeyPair_irqStat (s : State) (d : Nat) : (s.setKeyPair d).irqStat = s.irqStat := rfl
@[simp] theorem State.setKeyPair_aadLen (s : State) (d : Nat) : (s.setKeyPair d).aadLen = s.aadLen := rfl
@[simp] theorem State.setKeyPair_inLen (s : State) (d : Nat) : (s.setKeyPair d).inLen = s.inLen := rfl
@[simp] theorem State.setKeyPair_outLen (s : State) (d : Nat) : (s.setKeyPair d).outLen = s.outLen := rfl
@[simp] theorem State.setKeyPair_saltLen (s : State) (d : Nat) : (s.setKeyPair d).saltLen = s.saltLen := rfl
@[simp] theorem State.setKeyPair_ikmLen (s : State) (d : Nat) : (s.setKeyPair d).ikmLen = s.ikmLen := rfl
@[simp] theorem State.setKeyPair_privLen (s : State) (d : Nat) : (s.setKeyPair d).privLen = s.privLen := rfl
@[simp] theorem State.setKeyPair_counter (s : State) (d : Nat) : (s.setKeyPair d).counter = s.counter := rfl
@[simp] theorem State.setKeyPair_rxCtrHi (s : State) (d : Nat) : (s.setKeyPair d).rxCtrHi = s.rxCtrHi := rfl
@[simp] theorem State.setKeyPair_rxCounter (s : State) (d : Nat) : (s.setKeyPair d).rxCounter = s.rxCounter := rfl
@[simp] theorem State.setKeyPair_rxSize (s : State) (d : Nat) : (s.setKeyPair d).rxSize = s.rxSize := rfl
@[simp] theorem State.setKeyPair_crcResult (s : State) (d : Nat) : (s.setKeyPair d).crcResult = s.crcResult := rfl
@[simp] theorem State.setKeyPair_pad (s : State) (d : Nat) : (s.setKeyPair d).pad = s.pad := rfl
@[simp] theorem State.setKeyPair_iv (s : State) (d : Nat) : (s.setKeyPair d).iv = s.iv := rfl
@[simp] theorem State.setKeyPair_mem (s : State) (d : Nat) :
    (s.setKeyPair d).mem = (s.fillBuf .pub (rawPublicKey (pointMul d basePoint))).mem := rfl
@[simp] theorem State.setKeyPair_d (s : State) (d : Nat) : (s.setKeyPair d).d = BitVec.ofNat 256 d := rfl
@[simp] theorem State.setKeyPair_dValid (s : State) (d : Nat) : (s.setKeyPair d).dValid = true := rfl
@[simp] theorem State.setKeyPair_peerValid (s : State) (d : Nat) : (s.setKeyPair d).peerValid = s.peerValid := rfl
@[simp] theorem State.setKeyPair_sharedValid (s : State) (d : Nat) :
    (s.setKeyPair d).sharedValid = s.sharedValid := rfl
@[simp] theorem State.setKeyPair_fsm (s : State) (d : Nat) : (s.setKeyPair d).fsm = s.fsm := rfl
@[simp] theorem State.setKeyPair_schedule (s : State) (d : Nat) : (s.setKeyPair d).schedule = s.schedule := rfl
@[simp] theorem State.setKeyPair_hostProgram (s : State) (d : Nat) :
    (s.setKeyPair d).hostProgram = s.hostProgram := rfl
@[simp] theorem State.setKeyPair_busLog (s : State) (d : Nat) : (s.setKeyPair d).busLog = s.busLog := rfl
@[simp] theorem State.setKeyPair_entropy (s : State) (d : Nat) : (s.setKeyPair d).entropy = s.entropy := rfl
@[simp] theorem State.setKeyPair_draws (s : State) (d : Nat) : (s.setKeyPair d).draws = s.draws := rfl

/-! ### `State.dropKeyPair`: D, D_VALID and PUB (R511) -/

@[simp] theorem State.dropKeyPair_ctrl (s : State) : s.dropKeyPair.ctrl = s.ctrl := rfl
@[simp] theorem State.dropKeyPair_result (s : State) : s.dropKeyPair.result = s.result := rfl
@[simp] theorem State.dropKeyPair_irqEn (s : State) : s.dropKeyPair.irqEn = s.irqEn := rfl
@[simp] theorem State.dropKeyPair_irqStat (s : State) : s.dropKeyPair.irqStat = s.irqStat := rfl
@[simp] theorem State.dropKeyPair_aadLen (s : State) : s.dropKeyPair.aadLen = s.aadLen := rfl
@[simp] theorem State.dropKeyPair_inLen (s : State) : s.dropKeyPair.inLen = s.inLen := rfl
@[simp] theorem State.dropKeyPair_outLen (s : State) : s.dropKeyPair.outLen = s.outLen := rfl
@[simp] theorem State.dropKeyPair_saltLen (s : State) : s.dropKeyPair.saltLen = s.saltLen := rfl
@[simp] theorem State.dropKeyPair_ikmLen (s : State) : s.dropKeyPair.ikmLen = s.ikmLen := rfl
@[simp] theorem State.dropKeyPair_privLen (s : State) : s.dropKeyPair.privLen = s.privLen := rfl
@[simp] theorem State.dropKeyPair_counter (s : State) : s.dropKeyPair.counter = s.counter := rfl
@[simp] theorem State.dropKeyPair_rxCtrHi (s : State) : s.dropKeyPair.rxCtrHi = s.rxCtrHi := rfl
@[simp] theorem State.dropKeyPair_rxCounter (s : State) : s.dropKeyPair.rxCounter = s.rxCounter := rfl
@[simp] theorem State.dropKeyPair_rxSize (s : State) : s.dropKeyPair.rxSize = s.rxSize := rfl
@[simp] theorem State.dropKeyPair_crcResult (s : State) : s.dropKeyPair.crcResult = s.crcResult := rfl
@[simp] theorem State.dropKeyPair_pad (s : State) : s.dropKeyPair.pad = s.pad := rfl
@[simp] theorem State.dropKeyPair_iv (s : State) : s.dropKeyPair.iv = s.iv := rfl
@[simp] theorem State.dropKeyPair_mem (s : State) : s.dropKeyPair.mem = (s.fillBuf .pub []).mem := rfl
@[simp] theorem State.dropKeyPair_d (s : State) : s.dropKeyPair.d = 0 := rfl
@[simp] theorem State.dropKeyPair_dValid (s : State) : s.dropKeyPair.dValid = false := rfl
@[simp] theorem State.dropKeyPair_peerValid (s : State) : s.dropKeyPair.peerValid = s.peerValid := rfl
@[simp] theorem State.dropKeyPair_sharedValid (s : State) : s.dropKeyPair.sharedValid = s.sharedValid := rfl
@[simp] theorem State.dropKeyPair_fsm (s : State) : s.dropKeyPair.fsm = s.fsm := rfl
@[simp] theorem State.dropKeyPair_schedule (s : State) : s.dropKeyPair.schedule = s.schedule := rfl
@[simp] theorem State.dropKeyPair_hostProgram (s : State) : s.dropKeyPair.hostProgram = s.hostProgram := rfl
@[simp] theorem State.dropKeyPair_busLog (s : State) : s.dropKeyPair.busLog = s.busLog := rfl
@[simp] theorem State.dropKeyPair_entropy (s : State) : s.dropKeyPair.entropy = s.entropy := rfl
@[simp] theorem State.dropKeyPair_draws (s : State) : s.dropKeyPair.draws = s.draws := rfl

/-! ### `State.exportKey`: PRIV and PRIV_LEN (R513) -/

@[simp] theorem State.exportKey_ctrl (s : State) : s.exportKey.ctrl = s.ctrl := rfl
@[simp] theorem State.exportKey_result (s : State) : s.exportKey.result = s.result := rfl
@[simp] theorem State.exportKey_irqEn (s : State) : s.exportKey.irqEn = s.irqEn := rfl
@[simp] theorem State.exportKey_irqStat (s : State) : s.exportKey.irqStat = s.irqStat := rfl
@[simp] theorem State.exportKey_aadLen (s : State) : s.exportKey.aadLen = s.aadLen := rfl
@[simp] theorem State.exportKey_inLen (s : State) : s.exportKey.inLen = s.inLen := rfl
@[simp] theorem State.exportKey_outLen (s : State) : s.exportKey.outLen = s.outLen := rfl
@[simp] theorem State.exportKey_saltLen (s : State) : s.exportKey.saltLen = s.saltLen := rfl
@[simp] theorem State.exportKey_ikmLen (s : State) : s.exportKey.ikmLen = s.ikmLen := rfl
@[simp] theorem State.exportKey_privLen (s : State) :
    s.exportKey.privLen = BitVec.ofNat 16 (minBE s.d.toNat).length := rfl
@[simp] theorem State.exportKey_counter (s : State) : s.exportKey.counter = s.counter := rfl
@[simp] theorem State.exportKey_rxCtrHi (s : State) : s.exportKey.rxCtrHi = s.rxCtrHi := rfl
@[simp] theorem State.exportKey_rxCounter (s : State) : s.exportKey.rxCounter = s.rxCounter := rfl
@[simp] theorem State.exportKey_rxSize (s : State) : s.exportKey.rxSize = s.rxSize := rfl
@[simp] theorem State.exportKey_crcResult (s : State) : s.exportKey.crcResult = s.crcResult := rfl
@[simp] theorem State.exportKey_pad (s : State) : s.exportKey.pad = s.pad := rfl
@[simp] theorem State.exportKey_iv (s : State) : s.exportKey.iv = s.iv := rfl
@[simp] theorem State.exportKey_mem (s : State) : s.exportKey.mem = (s.fillBuf .priv (minBE s.d.toNat)).mem := rfl
@[simp] theorem State.exportKey_d (s : State) : s.exportKey.d = s.d := rfl
@[simp] theorem State.exportKey_dValid (s : State) : s.exportKey.dValid = s.dValid := rfl
@[simp] theorem State.exportKey_peerValid (s : State) : s.exportKey.peerValid = s.peerValid := rfl
@[simp] theorem State.exportKey_sharedValid (s : State) : s.exportKey.sharedValid = s.sharedValid := rfl
@[simp] theorem State.exportKey_fsm (s : State) : s.exportKey.fsm = s.fsm := rfl
@[simp] theorem State.exportKey_schedule (s : State) : s.exportKey.schedule = s.schedule := rfl
@[simp] theorem State.exportKey_hostProgram (s : State) : s.exportKey.hostProgram = s.hostProgram := rfl
@[simp] theorem State.exportKey_busLog (s : State) : s.exportKey.busLog = s.busLog := rfl
@[simp] theorem State.exportKey_entropy (s : State) : s.exportKey.entropy = s.entropy := rfl
@[simp] theorem State.exportKey_draws (s : State) : s.exportKey.draws = s.draws := rfl

/-! ### `State.setShared`: SHARED and SHARED_VALID (R515) -/

@[simp] theorem State.setShared_ctrl (s : State) (x : Nat) :
    (s.setShared x).ctrl = s.ctrl := by simp only [State.setShared, State.fillBuf]
@[simp] theorem State.setShared_result (s : State) (x : Nat) :
    (s.setShared x).result = s.result := by simp only [State.setShared, State.fillBuf]
@[simp] theorem State.setShared_irqEn (s : State) (x : Nat) :
    (s.setShared x).irqEn = s.irqEn := by simp only [State.setShared, State.fillBuf]
@[simp] theorem State.setShared_irqStat (s : State) (x : Nat) :
    (s.setShared x).irqStat = s.irqStat := by simp only [State.setShared, State.fillBuf]
@[simp] theorem State.setShared_aadLen (s : State) (x : Nat) :
    (s.setShared x).aadLen = s.aadLen := by simp only [State.setShared, State.fillBuf]
@[simp] theorem State.setShared_inLen (s : State) (x : Nat) :
    (s.setShared x).inLen = s.inLen := by simp only [State.setShared, State.fillBuf]
@[simp] theorem State.setShared_outLen (s : State) (x : Nat) :
    (s.setShared x).outLen = s.outLen := by simp only [State.setShared, State.fillBuf]
@[simp] theorem State.setShared_saltLen (s : State) (x : Nat) :
    (s.setShared x).saltLen = s.saltLen := by simp only [State.setShared, State.fillBuf]
@[simp] theorem State.setShared_ikmLen (s : State) (x : Nat) :
    (s.setShared x).ikmLen = s.ikmLen := by simp only [State.setShared, State.fillBuf]
@[simp] theorem State.setShared_privLen (s : State) (x : Nat) :
    (s.setShared x).privLen = s.privLen := by simp only [State.setShared, State.fillBuf]
@[simp] theorem State.setShared_counter (s : State) (x : Nat) :
    (s.setShared x).counter = s.counter := by simp only [State.setShared, State.fillBuf]
@[simp] theorem State.setShared_rxCtrHi (s : State) (x : Nat) :
    (s.setShared x).rxCtrHi = s.rxCtrHi := by simp only [State.setShared, State.fillBuf]
@[simp] theorem State.setShared_rxCounter (s : State) (x : Nat) :
    (s.setShared x).rxCounter = s.rxCounter := by simp only [State.setShared, State.fillBuf]
@[simp] theorem State.setShared_rxSize (s : State) (x : Nat) :
    (s.setShared x).rxSize = s.rxSize := by simp only [State.setShared, State.fillBuf]
@[simp] theorem State.setShared_crcResult (s : State) (x : Nat) :
    (s.setShared x).crcResult = s.crcResult := by simp only [State.setShared, State.fillBuf]
@[simp] theorem State.setShared_pad (s : State) (x : Nat) :
    (s.setShared x).pad = s.pad := by simp only [State.setShared, State.fillBuf]
@[simp] theorem State.setShared_iv (s : State) (x : Nat) :
    (s.setShared x).iv = s.iv := by simp only [State.setShared, State.fillBuf]
@[simp] theorem State.setShared_mem (s : State) (x : Nat) :
    (s.setShared x).mem = (s.fillBuf .shared (sharedSecret x)).mem := by simp only [State.setShared, State.fillBuf]
@[simp] theorem State.setShared_d (s : State) (x : Nat) :
    (s.setShared x).d = s.d := by simp only [State.setShared, State.fillBuf]
@[simp] theorem State.setShared_dValid (s : State) (x : Nat) :
    (s.setShared x).dValid = s.dValid := by simp only [State.setShared, State.fillBuf]
@[simp] theorem State.setShared_peerValid (s : State) (x : Nat) :
    (s.setShared x).peerValid = s.peerValid := by simp only [State.setShared, State.fillBuf]
@[simp] theorem State.setShared_sharedValid (s : State) (x : Nat) :
    (s.setShared x).sharedValid = true := by simp only [State.setShared, State.fillBuf]
@[simp] theorem State.setShared_fsm (s : State) (x : Nat) :
    (s.setShared x).fsm = s.fsm := by simp only [State.setShared, State.fillBuf]
@[simp] theorem State.setShared_schedule (s : State) (x : Nat) :
    (s.setShared x).schedule = s.schedule := by simp only [State.setShared, State.fillBuf]
@[simp] theorem State.setShared_hostProgram (s : State) (x : Nat) :
    (s.setShared x).hostProgram = s.hostProgram := by simp only [State.setShared, State.fillBuf]
@[simp] theorem State.setShared_busLog (s : State) (x : Nat) :
    (s.setShared x).busLog = s.busLog := by simp only [State.setShared, State.fillBuf]
@[simp] theorem State.setShared_entropy (s : State) (x : Nat) :
    (s.setShared x).entropy = s.entropy := by simp only [State.setShared, State.fillBuf]
@[simp] theorem State.setShared_draws (s : State) (x : Nat) :
    (s.setShared x).draws = s.draws := by simp only [State.setShared, State.fillBuf]

/-! ### `State.dropShared`: SHARED and SHARED_VALID (R515) -/

@[simp] theorem State.dropShared_ctrl (s : State) : s.dropShared.ctrl = s.ctrl := rfl
@[simp] theorem State.dropShared_result (s : State) : s.dropShared.result = s.result := rfl
@[simp] theorem State.dropShared_irqEn (s : State) : s.dropShared.irqEn = s.irqEn := rfl
@[simp] theorem State.dropShared_irqStat (s : State) : s.dropShared.irqStat = s.irqStat := rfl
@[simp] theorem State.dropShared_aadLen (s : State) : s.dropShared.aadLen = s.aadLen := rfl
@[simp] theorem State.dropShared_inLen (s : State) : s.dropShared.inLen = s.inLen := rfl
@[simp] theorem State.dropShared_outLen (s : State) : s.dropShared.outLen = s.outLen := rfl
@[simp] theorem State.dropShared_saltLen (s : State) : s.dropShared.saltLen = s.saltLen := rfl
@[simp] theorem State.dropShared_ikmLen (s : State) : s.dropShared.ikmLen = s.ikmLen := rfl
@[simp] theorem State.dropShared_privLen (s : State) : s.dropShared.privLen = s.privLen := rfl
@[simp] theorem State.dropShared_counter (s : State) : s.dropShared.counter = s.counter := rfl
@[simp] theorem State.dropShared_rxCtrHi (s : State) : s.dropShared.rxCtrHi = s.rxCtrHi := rfl
@[simp] theorem State.dropShared_rxCounter (s : State) : s.dropShared.rxCounter = s.rxCounter := rfl
@[simp] theorem State.dropShared_rxSize (s : State) : s.dropShared.rxSize = s.rxSize := rfl
@[simp] theorem State.dropShared_crcResult (s : State) : s.dropShared.crcResult = s.crcResult := rfl
@[simp] theorem State.dropShared_pad (s : State) : s.dropShared.pad = s.pad := rfl
@[simp] theorem State.dropShared_iv (s : State) : s.dropShared.iv = s.iv := rfl
@[simp] theorem State.dropShared_mem (s : State) : s.dropShared.mem = (s.fillBuf .shared []).mem := rfl
@[simp] theorem State.dropShared_d (s : State) : s.dropShared.d = s.d := rfl
@[simp] theorem State.dropShared_dValid (s : State) : s.dropShared.dValid = s.dValid := rfl
@[simp] theorem State.dropShared_peerValid (s : State) : s.dropShared.peerValid = s.peerValid := rfl
@[simp] theorem State.dropShared_sharedValid (s : State) : s.dropShared.sharedValid = false := rfl
@[simp] theorem State.dropShared_fsm (s : State) : s.dropShared.fsm = s.fsm := rfl
@[simp] theorem State.dropShared_schedule (s : State) : s.dropShared.schedule = s.schedule := rfl
@[simp] theorem State.dropShared_hostProgram (s : State) : s.dropShared.hostProgram = s.hostProgram := rfl
@[simp] theorem State.dropShared_busLog (s : State) : s.dropShared.busLog = s.busLog := rfl
@[simp] theorem State.dropShared_entropy (s : State) : s.dropShared.entropy = s.entropy := rfl
@[simp] theorem State.dropShared_draws (s : State) : s.dropShared.draws = s.draws := rfl

/-! ### `State.clearBuffers`: every buffer's bytes (R417) -/

@[simp] theorem State.clearBuffers_ctrl (s : State) : s.clearBuffers.ctrl = s.ctrl := rfl
@[simp] theorem State.clearBuffers_result (s : State) : s.clearBuffers.result = s.result := rfl
@[simp] theorem State.clearBuffers_irqEn (s : State) : s.clearBuffers.irqEn = s.irqEn := rfl
@[simp] theorem State.clearBuffers_irqStat (s : State) : s.clearBuffers.irqStat = s.irqStat := rfl
@[simp] theorem State.clearBuffers_aadLen (s : State) : s.clearBuffers.aadLen = s.aadLen := rfl
@[simp] theorem State.clearBuffers_inLen (s : State) : s.clearBuffers.inLen = s.inLen := rfl
@[simp] theorem State.clearBuffers_outLen (s : State) : s.clearBuffers.outLen = s.outLen := rfl
@[simp] theorem State.clearBuffers_saltLen (s : State) : s.clearBuffers.saltLen = s.saltLen := rfl
@[simp] theorem State.clearBuffers_ikmLen (s : State) : s.clearBuffers.ikmLen = s.ikmLen := rfl
@[simp] theorem State.clearBuffers_privLen (s : State) : s.clearBuffers.privLen = s.privLen := rfl
@[simp] theorem State.clearBuffers_counter (s : State) : s.clearBuffers.counter = s.counter := rfl
@[simp] theorem State.clearBuffers_rxCtrHi (s : State) : s.clearBuffers.rxCtrHi = s.rxCtrHi := rfl
@[simp] theorem State.clearBuffers_rxCounter (s : State) : s.clearBuffers.rxCounter = s.rxCounter := rfl
@[simp] theorem State.clearBuffers_rxSize (s : State) : s.clearBuffers.rxSize = s.rxSize := rfl
@[simp] theorem State.clearBuffers_crcResult (s : State) : s.clearBuffers.crcResult = s.crcResult := rfl
@[simp] theorem State.clearBuffers_pad (s : State) : s.clearBuffers.pad = s.pad := rfl
@[simp] theorem State.clearBuffers_iv (s : State) : s.clearBuffers.iv = s.iv := rfl
theorem State.clearBuffers_mem (s : State) :
    s.clearBuffers.mem = Buffer.all.foldl (fun m b => Memory.clear m b.base b.size) s.mem := rfl
@[simp] theorem State.clearBuffers_d (s : State) : s.clearBuffers.d = s.d := rfl
@[simp] theorem State.clearBuffers_dValid (s : State) : s.clearBuffers.dValid = s.dValid := rfl
@[simp] theorem State.clearBuffers_peerValid (s : State) : s.clearBuffers.peerValid = s.peerValid := rfl
@[simp] theorem State.clearBuffers_sharedValid (s : State) : s.clearBuffers.sharedValid = s.sharedValid := rfl
@[simp] theorem State.clearBuffers_fsm (s : State) : s.clearBuffers.fsm = s.fsm := rfl
@[simp] theorem State.clearBuffers_schedule (s : State) : s.clearBuffers.schedule = s.schedule := rfl
@[simp] theorem State.clearBuffers_hostProgram (s : State) : s.clearBuffers.hostProgram = s.hostProgram := rfl
@[simp] theorem State.clearBuffers_busLog (s : State) : s.clearBuffers.busLog = s.busLog := rfl
@[simp] theorem State.clearBuffers_entropy (s : State) : s.clearBuffers.entropy = s.entropy := rfl
@[simp] theorem State.clearBuffers_draws (s : State) : s.clearBuffers.draws = s.draws := rfl

/-! ### `State.zeroized`: R417's writes -/

@[simp] theorem State.zeroized_ctrl (s : State) : s.zeroized.ctrl = s.ctrl := rfl
@[simp] theorem State.zeroized_result (s : State) : s.zeroized.result = s.result := rfl
@[simp] theorem State.zeroized_irqEn (s : State) : s.zeroized.irqEn = s.irqEn := rfl
@[simp] theorem State.zeroized_irqStat (s : State) : s.zeroized.irqStat = s.irqStat := rfl
@[simp] theorem State.zeroized_aadLen (s : State) : s.zeroized.aadLen = 0 := rfl
@[simp] theorem State.zeroized_inLen (s : State) : s.zeroized.inLen = 0 := rfl
@[simp] theorem State.zeroized_outLen (s : State) : s.zeroized.outLen = 0 := rfl
@[simp] theorem State.zeroized_saltLen (s : State) : s.zeroized.saltLen = 0 := rfl
@[simp] theorem State.zeroized_ikmLen (s : State) : s.zeroized.ikmLen = 0 := rfl
@[simp] theorem State.zeroized_privLen (s : State) : s.zeroized.privLen = 0 := rfl
@[simp] theorem State.zeroized_counter (s : State) : s.zeroized.counter = 0 := rfl
@[simp] theorem State.zeroized_rxCtrHi (s : State) : s.zeroized.rxCtrHi = 0 := rfl
@[simp] theorem State.zeroized_rxCounter (s : State) : s.zeroized.rxCounter = 0 := rfl
@[simp] theorem State.zeroized_rxSize (s : State) : s.zeroized.rxSize = 0 := rfl
@[simp] theorem State.zeroized_crcResult (s : State) : s.zeroized.crcResult = 0 := rfl
@[simp] theorem State.zeroized_pad (s : State) : s.zeroized.pad = 0 := rfl
@[simp] theorem State.zeroized_iv (s : State) : s.zeroized.iv = 0 := rfl
@[simp] theorem State.zeroized_mem (s : State) : s.zeroized.mem = s.clearBuffers.mem := rfl
@[simp] theorem State.zeroized_d (s : State) : s.zeroized.d = 0 := rfl
@[simp] theorem State.zeroized_dValid (s : State) : s.zeroized.dValid = false := rfl
@[simp] theorem State.zeroized_peerValid (s : State) : s.zeroized.peerValid = false := rfl
@[simp] theorem State.zeroized_sharedValid (s : State) : s.zeroized.sharedValid = false := rfl
@[simp] theorem State.zeroized_fsm (s : State) : s.zeroized.fsm = s.fsm := rfl
@[simp] theorem State.zeroized_schedule (s : State) : s.zeroized.schedule = s.schedule := rfl
@[simp] theorem State.zeroized_hostProgram (s : State) : s.zeroized.hostProgram = s.hostProgram := rfl
@[simp] theorem State.zeroized_busLog (s : State) : s.zeroized.busLog = s.busLog := rfl
@[simp] theorem State.zeroized_entropy (s : State) : s.zeroized.entropy = s.entropy := rfl
@[simp] theorem State.zeroized_draws (s : State) : s.zeroized.draws = s.draws := rfl

/-! ### `State.bumpCounter`: COUNTER (R810) -/

@[simp] theorem State.bumpCounter_ctrl (s : State) : s.bumpCounter.ctrl = s.ctrl := by unfold State.bumpCounter; split <;> rfl
@[simp] theorem State.bumpCounter_result (s : State) : s.bumpCounter.result = s.result := by unfold State.bumpCounter; split <;> rfl
@[simp] theorem State.bumpCounter_irqEn (s : State) : s.bumpCounter.irqEn = s.irqEn := by unfold State.bumpCounter; split <;> rfl
@[simp] theorem State.bumpCounter_irqStat (s : State) : s.bumpCounter.irqStat = s.irqStat := by unfold State.bumpCounter; split <;> rfl
@[simp] theorem State.bumpCounter_aadLen (s : State) : s.bumpCounter.aadLen = s.aadLen := by unfold State.bumpCounter; split <;> rfl
@[simp] theorem State.bumpCounter_inLen (s : State) : s.bumpCounter.inLen = s.inLen := by unfold State.bumpCounter; split <;> rfl
@[simp] theorem State.bumpCounter_outLen (s : State) : s.bumpCounter.outLen = s.outLen := by unfold State.bumpCounter; split <;> rfl
@[simp] theorem State.bumpCounter_saltLen (s : State) : s.bumpCounter.saltLen = s.saltLen := by unfold State.bumpCounter; split <;> rfl
@[simp] theorem State.bumpCounter_ikmLen (s : State) : s.bumpCounter.ikmLen = s.ikmLen := by unfold State.bumpCounter; split <;> rfl
@[simp] theorem State.bumpCounter_privLen (s : State) : s.bumpCounter.privLen = s.privLen := by unfold State.bumpCounter; split <;> rfl
@[simp] theorem State.bumpCounter_counter (s : State) :
    s.bumpCounter.counter = (if s.autoInc then s.counter + 1 else s.counter) := by
  unfold State.bumpCounter; split <;> rfl
@[simp] theorem State.bumpCounter_rxCtrHi (s : State) : s.bumpCounter.rxCtrHi = s.rxCtrHi := by unfold State.bumpCounter; split <;> rfl
@[simp] theorem State.bumpCounter_rxCounter (s : State) : s.bumpCounter.rxCounter = s.rxCounter := by unfold State.bumpCounter; split <;> rfl
@[simp] theorem State.bumpCounter_rxSize (s : State) : s.bumpCounter.rxSize = s.rxSize := by unfold State.bumpCounter; split <;> rfl
@[simp] theorem State.bumpCounter_crcResult (s : State) : s.bumpCounter.crcResult = s.crcResult := by unfold State.bumpCounter; split <;> rfl
@[simp] theorem State.bumpCounter_pad (s : State) : s.bumpCounter.pad = s.pad := by unfold State.bumpCounter; split <;> rfl
@[simp] theorem State.bumpCounter_iv (s : State) : s.bumpCounter.iv = s.iv := by unfold State.bumpCounter; split <;> rfl
@[simp] theorem State.bumpCounter_mem (s : State) : s.bumpCounter.mem = s.mem := by unfold State.bumpCounter; split <;> rfl
@[simp] theorem State.bumpCounter_d (s : State) : s.bumpCounter.d = s.d := by unfold State.bumpCounter; split <;> rfl
@[simp] theorem State.bumpCounter_dValid (s : State) : s.bumpCounter.dValid = s.dValid := by unfold State.bumpCounter; split <;> rfl
@[simp] theorem State.bumpCounter_peerValid (s : State) : s.bumpCounter.peerValid = s.peerValid := by unfold State.bumpCounter; split <;> rfl
@[simp] theorem State.bumpCounter_sharedValid (s : State) : s.bumpCounter.sharedValid = s.sharedValid := by unfold State.bumpCounter; split <;> rfl
@[simp] theorem State.bumpCounter_fsm (s : State) : s.bumpCounter.fsm = s.fsm := by unfold State.bumpCounter; split <;> rfl
@[simp] theorem State.bumpCounter_schedule (s : State) : s.bumpCounter.schedule = s.schedule := by unfold State.bumpCounter; split <;> rfl
@[simp] theorem State.bumpCounter_hostProgram (s : State) : s.bumpCounter.hostProgram = s.hostProgram := by unfold State.bumpCounter; split <;> rfl
@[simp] theorem State.bumpCounter_busLog (s : State) : s.bumpCounter.busLog = s.busLog := by unfold State.bumpCounter; split <;> rfl
@[simp] theorem State.bumpCounter_entropy (s : State) : s.bumpCounter.entropy = s.entropy := by unfold State.bumpCounter; split <;> rfl
@[simp] theorem State.bumpCounter_draws (s : State) : s.bumpCounter.draws = s.draws := by unfold State.bumpCounter; split <;> rfl

/-! ### `State.afterPad`: the entropy source's answer for the pad (R808) -/

@[simp] theorem State.afterPad_ctrl (s : State) (padsrc : Bool) : (s.afterPad padsrc).ctrl = s.ctrl := by cases padsrc <;> rfl
@[simp] theorem State.afterPad_result (s : State) (padsrc : Bool) : (s.afterPad padsrc).result = s.result := by cases padsrc <;> rfl
@[simp] theorem State.afterPad_irqEn (s : State) (padsrc : Bool) : (s.afterPad padsrc).irqEn = s.irqEn := by cases padsrc <;> rfl
@[simp] theorem State.afterPad_irqStat (s : State) (padsrc : Bool) : (s.afterPad padsrc).irqStat = s.irqStat := by cases padsrc <;> rfl
@[simp] theorem State.afterPad_aadLen (s : State) (padsrc : Bool) : (s.afterPad padsrc).aadLen = s.aadLen := by cases padsrc <;> rfl
@[simp] theorem State.afterPad_inLen (s : State) (padsrc : Bool) : (s.afterPad padsrc).inLen = s.inLen := by cases padsrc <;> rfl
@[simp] theorem State.afterPad_outLen (s : State) (padsrc : Bool) : (s.afterPad padsrc).outLen = s.outLen := by cases padsrc <;> rfl
@[simp] theorem State.afterPad_saltLen (s : State) (padsrc : Bool) : (s.afterPad padsrc).saltLen = s.saltLen := by cases padsrc <;> rfl
@[simp] theorem State.afterPad_ikmLen (s : State) (padsrc : Bool) : (s.afterPad padsrc).ikmLen = s.ikmLen := by cases padsrc <;> rfl
@[simp] theorem State.afterPad_privLen (s : State) (padsrc : Bool) : (s.afterPad padsrc).privLen = s.privLen := by cases padsrc <;> rfl
@[simp] theorem State.afterPad_counter (s : State) (padsrc : Bool) : (s.afterPad padsrc).counter = s.counter := by cases padsrc <;> rfl
@[simp] theorem State.afterPad_rxCtrHi (s : State) (padsrc : Bool) : (s.afterPad padsrc).rxCtrHi = s.rxCtrHi := by cases padsrc <;> rfl
@[simp] theorem State.afterPad_rxCounter (s : State) (padsrc : Bool) :
    (s.afterPad padsrc).rxCounter = s.rxCounter := by cases padsrc <;> rfl
@[simp] theorem State.afterPad_rxSize (s : State) (padsrc : Bool) : (s.afterPad padsrc).rxSize = s.rxSize := by cases padsrc <;> rfl
@[simp] theorem State.afterPad_crcResult (s : State) (padsrc : Bool) :
    (s.afterPad padsrc).crcResult = s.crcResult := by cases padsrc <;> rfl
@[simp] theorem State.afterPad_pad (s : State) (padsrc : Bool) : (s.afterPad padsrc).pad = s.pad := by cases padsrc <;> rfl
@[simp] theorem State.afterPad_iv (s : State) (padsrc : Bool) : (s.afterPad padsrc).iv = s.iv := by cases padsrc <;> rfl
@[simp] theorem State.afterPad_mem (s : State) (padsrc : Bool) : (s.afterPad padsrc).mem = s.mem := by cases padsrc <;> rfl
@[simp] theorem State.afterPad_d (s : State) (padsrc : Bool) : (s.afterPad padsrc).d = s.d := by cases padsrc <;> rfl
@[simp] theorem State.afterPad_dValid (s : State) (padsrc : Bool) : (s.afterPad padsrc).dValid = s.dValid := by cases padsrc <;> rfl
@[simp] theorem State.afterPad_peerValid (s : State) (padsrc : Bool) :
    (s.afterPad padsrc).peerValid = s.peerValid := by cases padsrc <;> rfl
@[simp] theorem State.afterPad_sharedValid (s : State) (padsrc : Bool) :
    (s.afterPad padsrc).sharedValid = s.sharedValid := by cases padsrc <;> rfl
@[simp] theorem State.afterPad_fsm (s : State) (padsrc : Bool) : (s.afterPad padsrc).fsm = s.fsm := by cases padsrc <;> rfl
@[simp] theorem State.afterPad_schedule (s : State) (padsrc : Bool) : (s.afterPad padsrc).schedule = s.schedule := by cases padsrc <;> rfl
@[simp] theorem State.afterPad_hostProgram (s : State) (padsrc : Bool) :
    (s.afterPad padsrc).hostProgram = s.hostProgram := by cases padsrc <;> rfl
@[simp] theorem State.afterPad_busLog (s : State) (padsrc : Bool) : (s.afterPad padsrc).busLog = s.busLog := by cases padsrc <;> rfl
@[simp] theorem State.afterPad_entropy (s : State) (padsrc : Bool) :
    (s.afterPad padsrc).entropy = (if padsrc then s.entropy else s.entropy.tail) := by
  cases padsrc <;> rfl

/-! ### `State.platformReset`: every field of the MSC (R1002) -/

@[simp] theorem State.platformReset_ctrl (s : State) : s.platformReset.ctrl = State.reset.ctrl := rfl
@[simp] theorem State.platformReset_result (s : State) : s.platformReset.result = State.reset.result := rfl
@[simp] theorem State.platformReset_irqEn (s : State) : s.platformReset.irqEn = State.reset.irqEn := rfl
@[simp] theorem State.platformReset_irqStat (s : State) : s.platformReset.irqStat = State.reset.irqStat := rfl
@[simp] theorem State.platformReset_aadLen (s : State) : s.platformReset.aadLen = State.reset.aadLen := rfl
@[simp] theorem State.platformReset_inLen (s : State) : s.platformReset.inLen = State.reset.inLen := rfl
@[simp] theorem State.platformReset_outLen (s : State) : s.platformReset.outLen = State.reset.outLen := rfl
@[simp] theorem State.platformReset_saltLen (s : State) : s.platformReset.saltLen = State.reset.saltLen := rfl
@[simp] theorem State.platformReset_ikmLen (s : State) : s.platformReset.ikmLen = State.reset.ikmLen := rfl
@[simp] theorem State.platformReset_privLen (s : State) : s.platformReset.privLen = State.reset.privLen := rfl
@[simp] theorem State.platformReset_counter (s : State) : s.platformReset.counter = State.reset.counter := rfl
@[simp] theorem State.platformReset_rxCtrHi (s : State) : s.platformReset.rxCtrHi = State.reset.rxCtrHi := rfl
@[simp] theorem State.platformReset_rxCounter (s : State) : s.platformReset.rxCounter = State.reset.rxCounter := rfl
@[simp] theorem State.platformReset_rxSize (s : State) : s.platformReset.rxSize = State.reset.rxSize := rfl
@[simp] theorem State.platformReset_crcResult (s : State) : s.platformReset.crcResult = State.reset.crcResult := rfl
@[simp] theorem State.platformReset_pad (s : State) : s.platformReset.pad = State.reset.pad := rfl
@[simp] theorem State.platformReset_iv (s : State) : s.platformReset.iv = State.reset.iv := rfl
@[simp] theorem State.platformReset_mem (s : State) : s.platformReset.mem = State.reset.mem := rfl
@[simp] theorem State.platformReset_d (s : State) : s.platformReset.d = State.reset.d := rfl
@[simp] theorem State.platformReset_dValid (s : State) : s.platformReset.dValid = State.reset.dValid := rfl
@[simp] theorem State.platformReset_peerValid (s : State) : s.platformReset.peerValid = State.reset.peerValid := rfl
@[simp] theorem State.platformReset_sharedValid (s : State) :
    s.platformReset.sharedValid = State.reset.sharedValid := rfl
@[simp] theorem State.platformReset_fsm (s : State) : s.platformReset.fsm = State.reset.fsm := rfl
@[simp] theorem State.platformReset_schedule (s : State) : s.platformReset.schedule = s.schedule := rfl
@[simp] theorem State.platformReset_hostProgram (s : State) : s.platformReset.hostProgram = s.hostProgram := rfl
@[simp] theorem State.platformReset_busLog (s : State) : s.platformReset.busLog = s.busLog := rfl
@[simp] theorem State.platformReset_entropy (s : State) : s.platformReset.entropy = s.entropy := rfl
@[simp] theorem State.platformReset_draws (s : State) : s.platformReset.draws = s.draws := rfl

end Sys2Proof.Machine
end

