-- ==== Sys2Proof/Laws/Ops.lean ====
section
/-! SUPPORT. For each shared operation, what it does, said once: the buffers, the OUT writers' two ends, the
completion, ZEROIZE's clearing, who moves, reset. -/

namespace Sys2Proof.Machine

/-! ### Buffers -/

@[simp] theorem State.buf_length (s : State) (b : Buffer) : (s.buf b).length = b.size := by simp [State.buf]

theorem Buffer.holds_iff (b : Buffer) (a : Nat) : b.holds a = true ↔ b.base ≤ a ∧ a < b.base + b.size := by
  simp [Buffer.holds]

theorem Buffer.not_holds_iff (b : Buffer) (a : Nat) : b.holds a = false ↔ a < b.base ∨ b.base + b.size ≤ a := by
  simp only [Buffer.holds, Bool.and_eq_false_iff, decide_eq_false_iff_not]; omega

/-- No offset lies in two buffers (R101). -/
theorem Buffer.eq_of_holds (b b' : Buffer) (a : Nat) (h : b.holds a = true) (h' : b'.holds a = true) : b = b' := by
  rw [Buffer.holds_iff] at h h'
  cases b <;> cases b' <;> first | rfl | (simp only [Buffer.base, Buffer.size] at h h'; omega)

theorem Buffer.not_holds_of_ne {b b' : Buffer} (hne : b ≠ b') (a : Nat) (h : b.holds a = true) : b'.holds a = false := by
  cases h' : b'.holds a with
  | false => rfl
  | true => exact absurd (Buffer.eq_of_holds b b' a h h') hne

/-- Memories that agree on a buffer's bytes give the same buffer. -/
theorem State.buf_congr (s t : State) (b : Buffer)
    (h : ∀ a, b.holds a = true → Memory.read s.mem a = Memory.read t.mem a) : s.buf b = t.buf b :=
  Memory.readBytes_congr _ _ _ _ fun i h1 h2 => h i ((Buffer.holds_iff b i).2 ⟨h1, h2⟩)

theorem State.byteAt_buf (s : State) (b : Buffer) (i : Nat) (h : i < b.size) :
    byteAt (s.buf b) i = Memory.read s.mem (b.base + i) := Memory.byteAt_readBytes _ _ _ _ h

/-- Filling a buffer leaves every byte outside it alone. -/
theorem State.read_fillBuf_of_not_holds (s : State) (b : Buffer) (r : ByteString) (a : Nat) (h : b.holds a = false) :
    Memory.read (s.fillBuf b r).mem a = Memory.read s.mem a := by
  rw [Buffer.not_holds_iff] at h
  rw [State.fillBuf_mem, Memory.read_writeBytes_of_outside _ _ _ _ (by simp; omega),
    Memory.read_clear_of_outside _ _ _ _ h]

/-- A filled buffer holds the string and then zeros. -/
@[simp] theorem State.buf_fillBuf_self (s : State) (b : Buffer) (r : ByteString) :
    (s.fillBuf b r).buf b = r.take b.size ++ zeros (b.size - r.length) := by
  have h := Memory.readBytes_writeBytes_of_absent (Memory.clear s.mem b.base b.size) b.base b.size (r.take b.size)
    (by simp) fun i h1 h2 => Memory.absent_clear _ _ _ _ h1 h2
  rw [State.buf, State.fillBuf_mem, h, List.length_take]
  congr 2
  omega

/-- Filling a buffer leaves the other buffers alone. -/
theorem State.buf_fillBuf_of_ne (s : State) {b b' : Buffer} (r : ByteString) (hne : b' ≠ b) :
    (s.fillBuf b r).buf b' = s.buf b' :=
  State.buf_congr _ _ _ fun a ha => s.read_fillBuf_of_not_holds b r a (Buffer.not_holds_of_ne hne a ha)

/-- What filling a buffer does, in the statements' terms. -/
theorem State.fillBuf_filled (s : State) (b : Buffer) (r : ByteString) (h : r.length ≤ b.size) :
    Filled s (s.fillBuf b r) b r where
  bytes := by rw [State.buf_fillBuf_self, List.take_of_length_le h]
  frame := fun a ha => s.read_fillBuf_of_not_holds b r a ha

theorem State.fillBuf_wf (s : State) (b : Buffer) (r : ByteString) (h : Memory.wf s.mem = true) :
    Memory.wf (s.fillBuf b r).mem = true := by
  rw [State.fillBuf_mem]
  exact Memory.wf_writeBytes _ _ _ (Memory.wf_clear _ _ _ h)

/-- Filling a buffer lists no byte outside the buffers. -/
theorem State.fillBuf_inBuffers (s : State) (b : Buffer) (r : ByteString)
    (h : ∀ c ∈ s.mem, ∃ b : Buffer, b.holds c.1 = true) :
    ∀ c ∈ (s.fillBuf b r).mem, ∃ b : Buffer, b.holds c.1 = true := by
  intro c hc
  rw [State.fillBuf_mem] at hc
  rcases Memory.mem_writeBytes _ _ _ _ hc with hc | hc
  · exact h c (List.mem_of_mem_filter hc)
  · refine ⟨b, (Buffer.holds_iff b c.1).2 ⟨hc.1, ?_⟩⟩
    have := hc.2
    simp only [List.length_take] at this
    omega

/-! ### Buffers of the updates that leave them alone -/

@[simp] theorem State.buf_finish (s : State) (op : BitVec 8) (err : ErrCode) (b : Buffer) :
    (s.finish op err).buf b = s.buf b := rfl
@[simp] theorem State.buf_afterDraw (s : State) (b : Buffer) : s.afterDraw.buf b = s.buf b := rfl
@[simp] theorem State.buf_afterPad (s : State) (padsrc : Bool) (b : Buffer) : (s.afterPad padsrc).buf b = s.buf b := by
  cases padsrc <;> rfl
@[simp] theorem State.buf_bumpCounter (s : State) (b : Buffer) : s.bumpCounter.buf b = s.buf b := by
  unfold State.bumpCounter; split <;> rfl

/-! ### The completion and the OUT writers' ends -/

/-- The completion's own writes (R404 (3), (4)). -/
theorem State.finish_ended (s : State) (op : BitVec 8) (err : ErrCode) : Ended s (s.finish op err) op err := by
  cases err <;> simp [Ended, State.finish, irqStatAfter, resultWord, BitVec.or_assoc]

/-- A completion after a buffer was filled. -/
theorem State.fillBuf_finish_ended (s : State) (b : Buffer) (r : ByteString) (op : BitVec 8) (err : ErrCode) :
    Ended s ((s.fillBuf b r).finish op err) op err := by
  have h := (s.fillBuf b r).finish_ended op err
  unfold Ended at h ⊢
  rw [h]
  rfl

/-- An OUT writer's success (R409). -/
theorem State.succeedOut_spec (s : State) (op : BitVec 8) (r : ByteString) (h : r.length ≤ 512) :
    OutSuccess s (s.succeedOut op r) op r where
  fits := h
  filled :=
    { bytes := (s.fillBuf_filled .output r h).bytes
      frame := (s.fillBuf_filled .output r h).frame }
  ended := ({ s with outLen := BitVec.ofNat 16 r.length } : State).fillBuf_finish_ended .output r op .ok

/-- An OUT writer's failure (R410). -/
theorem State.failOut_spec (s : State) (op : BitVec 8) (err : ErrCode) (h : err ≠ .ok) :
    OutFailure s (s.failOut op err) op err where
  failed := h
  filled :=
    { bytes := (s.fillBuf_filled .output [] (Nat.zero_le _)).bytes
      frame := (s.fillBuf_filled .output [] (Nat.zero_le _)).frame }
  ended := ({ s with outLen := 0 } : State).fillBuf_finish_ended .output [] op err

/-! ### ZEROIZE -/

theorem Memory.read_foldl_clear (bs : List Buffer) (m : Memory) (a : Nat) :
    Memory.read (bs.foldl (fun m b => Memory.clear m b.base b.size) m) a =
      if bs.any (fun b => b.holds a) then 0 else Memory.read m a := by
  induction bs generalizing m with
  | nil => rfl
  | cons b bs ih =>
    rw [List.foldl_cons, ih, List.any_cons]
    cases hb : b.holds a with
    | false =>
      rw [Buffer.not_holds_iff] at hb
      rw [Memory.read_clear_of_outside _ _ _ _ hb, Bool.false_or]
    | true =>
      rw [Buffer.holds_iff] at hb
      rw [Memory.read_of_absent _ _ (Memory.absent_clear _ _ _ _ hb.1 hb.2), Bool.true_or]
      split <;> rfl

theorem Buffer.any_holds_iff (a : Nat) : Buffer.all.any (fun b => b.holds a) = true ↔ ∃ b : Buffer, b.holds a = true := by
  constructor
  · intro h
    obtain ⟨b, -, hb⟩ := List.any_eq_true.1 h
    exact ⟨b, hb⟩
  · rintro ⟨b, hb⟩
    exact List.any_eq_true.2 ⟨b, by cases b <;> simp [Buffer.all], hb⟩

/-- ZEROIZE zeroes the bytes of the buffers and no other byte (R417). -/
theorem State.read_clearBuffers (s : State) (a : Nat) :
    Memory.read s.clearBuffers.mem a =
      if Buffer.all.any (fun b => b.holds a) then 0 else Memory.read s.mem a := by
  rw [State.clearBuffers_mem, Memory.read_foldl_clear]

theorem Memory.wf_foldl_clear (bs : List Buffer) (m : Memory) (h : Memory.wf m = true) :
    Memory.wf (bs.foldl (fun m b => Memory.clear m b.base b.size) m) = true := by
  induction bs generalizing m with
  | nil => exact h
  | cons b bs ih => exact ih _ (Memory.wf_clear _ _ _ h)

theorem Memory.mem_of_mem_foldl_clear (bs : List Buffer) (m : Memory) (c : Host.Cell)
    (h : c ∈ bs.foldl (fun m b => Memory.clear m b.base b.size) m) : c ∈ m := by
  induction bs generalizing m with
  | nil => exact h
  | cons b bs ih => exact List.mem_of_mem_filter (ih _ h)

/-! ### Who moves -/

theorem State.mover_of_scheduled {s : State} {agent : Agent} {rest : List Agent} (h : s.schedule = agent :: rest) :
    s.mover = agent := by rw [State.mover, h]

theorem State.mover_of_busy {s : State} {w : Word} (h : s.schedule = []) (hw : s.fsm = .busy w) : s.mover = .engine := by
  simp [State.mover, h, State.busyFlag, hw]

theorem State.mover_of_idle {s : State} (h : s.schedule = []) (hi : s.fsm = .idle) : s.mover = .host := by
  simp [State.mover, h, State.busyFlag, hi]

/-! ### Reset -/

/-- The reset state's memory is in canonical form. -/
theorem State.reset_mem_wf : Memory.wf State.reset.mem = true := rfl

end Sys2Proof.Machine
end

