-- ==== Sys2Proof/Laws/Bus.lean ====
section
/-! SUPPORT. Where the map's locations lie, and what an access or an operand can be. -/

namespace Sys2Proof.Machine

/-- An access reaches a location exactly if it is 32 bits wide, aligned and mapped (R203 to R206). -/
theorem accessLocation_eq_some_iff (off bytes : Nat) (l : Location) :
    accessLocation off bytes = some l ↔ bytes = 4 ∧ off % 4 = 0 ∧ locate off = some l := by
  unfold accessLocation
  split <;> rename_i h
  · simp [h]
  · constructor
    · intro h'; cases h'
    · rintro ⟨h1, h2, -⟩; exact absurd ⟨h1, h2⟩ h

/-- A buffer word's location lies in the buffer (R101, R202). -/
theorem locate_buf (off : Nat) (b : Buffer) (index : Nat) (h : locate off = some (.buf b index)) :
    b.base + index = off ∧ index < b.size := by
  unfold locate at h
  split at h
  · cases h
  · split at h
    · rename_i b' hb
      have hin := List.find?_some hb
      rw [Buffer.holds_iff] at hin
      cases h
      omega
    · cases h

/-- A register's location is the register's offset (R101, R202). -/
theorem locate_reg (off : Nat) (r : Reg) (h : locate off = some (.reg r)) : r.offset = off := by
  unfold locate at h
  split at h
  · rename_i r' hr
    cases h
    simpa using List.find?_some hr
  · split at h <;> cases h

/-- Every mapped location is inside the window (R201, R202). -/
theorem locate_lt (off : Nat) (l : Location) (h : locate off = some l) : off < 2048 := by
  cases l with
  | reg r => rw [← locate_reg off r h]; cases r <;> decide
  | buf b index =>
    obtain ⟨h1, h2⟩ := locate_buf off b index h
    cases b <;> simp only [Buffer.base, Buffer.size] at h1 h2 <;> omega

/-- The buffers start and end on word boundaries (R101). -/
theorem Buffer.word_aligned (b : Buffer) : b.base % 4 = 0 ∧ b.size % 4 = 0 := by cases b <;> decide

theorem Buffer.within_window (b : Buffer) : 256 ≤ b.base ∧ b.base + b.size ≤ 2048 := by cases b <;> decide

/-! ### Operands -/

@[simp] theorem State.bufTake_length (s : State) (b : Buffer) (n : Nat) : (s.bufTake b n).length = min n b.size := by
  simp [State.bufTake]

@[simp] theorem State.inOperand_length (s : State) : s.inOperand.length = min s.inLen.toNat 512 := by
  simp [State.inOperand, Buffer.size]

@[simp] theorem State.ivBytes_length (s : State) : s.ivBytes.length = 4 := by simp [State.ivBytes]

@[simp] theorem State.padBytes_length (s : State) : s.padBytes.length = 4 := by simp [State.padBytes]

/-- The pad is 4 bytes, from either source (R808). -/
theorem State.framePad_length (s : State) (padsrc : Bool) (pad : ByteString) (h : s.framePad padsrc = some pad) :
    pad.length = 4 := by
  cases padsrc with
  | true =>
    have h' : s.padBytes = pad := by simpa [State.framePad] using h
    rw [← h', State.padBytes_length]
  | false =>
    cases he : s.entropyAnswer with
    | none => simp [State.framePad, State.entropyBytes, he] at h
    | some r =>
      have h' : beBytes 4 r = pad := by simpa [State.framePad, State.entropyBytes, he] using h
      rw [← h', beBytes_length]

/-- A raw public key is 64 bytes, also the free encoding of `O`. -/
@[simp] theorem rawPublicKey_length (q : Point) : (rawPublicKey q).length = 64 := by
  cases q <;> simp [rawPublicKey]

end Sys2Proof.Machine
end

