-- ==== Sys2Proof/Laws/Crypto.lean ====
section
/-! SUPPORT. How many bytes each cryptographic function answers. -/

namespace Sys2Proof.Machine

/-! ### SHA-256, HMAC, HKDF -/

@[simp] theorem HashState.bytes_length (x : HashState) : x.bytes.length = 32 := by simp [HashState.bytes]

@[simp] theorem sha256_length (m : ByteString) : (sha256 m).length = 32 := by simp [sha256]

@[simp] theorem hmacSha256_length (k m : ByteString) : (hmacSha256 k m).length = 32 := by simp [hmacSha256]

@[simp] theorem hkdfExpand_length (prk info : ByteString) : (hkdfExpand prk info).length = 64 := by simp [hkdfExpand]

/-! ### AES -/

@[simp] theorem subBytes_length (s : ByteString) : (subBytes s).length = s.length := by simp [subBytes]

@[simp] theorem shiftRows_length (s : ByteString) : (shiftRows s).length = 16 := rfl

theorem mixColumns_shiftRows_length (s : ByteString) : (mixColumns (shiftRows s)).length = 16 := by
  simp [shiftRows, mixColumns, mixColumn]

theorem keyScheduleCore_length (i : Nat) (t : ByteString) (h : t.length = 4) : (keyScheduleCore i t).length = 4 := by
  unfold keyScheduleCore; split <;> simp [h]

theorem keyExtend_words (k i : Nat) (ws : List ByteString) (hn : 4 ≤ ws.length) (hw : ∀ w ∈ ws, w.length = 4) :
    (keyExtend k i ws).length = ws.length + k ∧ ∀ w ∈ keyExtend k i ws, w.length = 4 := by
  induction k generalizing i ws with
  | zero => exact ⟨rfl, hw⟩
  | succ k ih =>
    have get (j : Nat) (hj : j < 4) : (ws.getD j []).length = 4 := by
      rw [List.getD_eq_getElem _ _ (by omega)]; exact hw _ (List.getElem_mem _)
    obtain ⟨h1, h2⟩ := ih (i + 1) (xorBytes (ws.getD 3 []) (keyScheduleCore i (ws.getD 0 [])) :: ws)
      (by simp; omega) (by
        intro w hw'
        rcases List.mem_cons.1 hw' with rfl | hw'
        · rw [xorBytes_length, get 3 (by omega), keyScheduleCore_length _ _ (get 0 (by omega))]; rfl
        · exact hw w hw')
    exact ⟨by rw [keyExtend, h1, List.length_cons]; omega, h2⟩

/-- The expanded key is 44 words of 4 bytes (R707). -/
theorem expandKey_words (key : ByteString) (h : key.length = 16) :
    (expandKey key).length = 44 ∧ ∀ w ∈ expandKey key, w.length = 4 := by
  have hb : (blocksOf 4 key).length = 4 := by simp [blocksOf, h, takeBlocks_length]
  obtain ⟨h1, h2⟩ := keyExtend_words 40 4 (blocksOf 4 key).reverse (by simp [hb]) (by
    intro w hw
    exact takeBlocks_block_length 4 _ key (by omega) w (List.mem_reverse.1 hw))
  exact ⟨by rw [expandKey, List.length_reverse, h1, List.length_reverse, hb], fun w hw =>
    h2 w (List.mem_reverse.1 hw)⟩

theorem flatten_length_of_forall (n : Nat) (l : List ByteString) (h : ∀ w ∈ l, w.length = n) :
    l.flatten.length = n * l.length := by
  induction l with
  | nil => simp
  | cons a l ih =>
    rw [List.flatten_cons, List.length_append, ih fun w hw => h w (List.mem_cons_of_mem a hw),
      h a List.mem_cons_self, List.length_cons]
    ring

/-- A round key is 16 bytes (R706). -/
theorem roundKey_length (key : ByteString) (i : Nat) (h : key.length = 16) (hi : i ≤ 10) :
    (roundKey (expandKey key) i).length = 16 := by
  obtain ⟨h1, h2⟩ := expandKey_words key h
  rw [roundKey, flatten_length_of_forall 4 _ fun w hw => h2 w (List.mem_of_mem_drop (List.mem_of_mem_take hw)),
    List.length_take, List.length_drop, h1]
  omega

/-- The cipher answers 16 bytes (R708). -/
theorem aes_length (key input : ByteString) (h : key.length = 16) : (aes key input).length = 16 := by
  simp [aes, aesWith, roundKey_length key 10 h (by omega)]

/-! ### CCM -/

theorem ccmStreamFrom_length (key nonce : ByteString) (j k : Nat) (h : key.length = 16) :
    (ccmStreamFrom key nonce j k).length = 16 * k := by
  induction k generalizing j with
  | zero => rfl
  | succ k ih => rw [ccmStreamFrom, List.length_append, ih, ccmStreamBlock, aes_length _ _ h]; omega

/-- The key stream is as long as the payload (R715). -/
theorem ccmKeyStream_length (key nonce : ByteString) (n : Nat) (h : key.length = 16) :
    (ccmKeyStream key nonce n).length = n := by
  rw [ccmKeyStream, List.length_take, ccmStreamFrom_length _ _ _ _ h]; omega

theorem ccmTagMask_length (key nonce : ByteString) (h : key.length = 16) : (ccmTagMask key nonce).length = 4 := by
  simp [ccmTagMask, ccmStreamBlock, aes_length _ _ h]

theorem foldl_aes_length (key : ByteString) (h : key.length = 16) (bs : List ByteString) (y : ByteString)
    (hy : y.length = 16) : (bs.foldl (fun y x => aes key (xorBytes y x)) y).length = 16 := by
  induction bs generalizing y with
  | nil => exact hy
  | cons b bs ih => exact ih _ (aes_length _ _ h)

/-- The CBC-MAC value is 4 bytes (R714). -/
theorem ccmMac_length (key nonce aad p : ByteString) (h : key.length = 16) : (ccmMac key nonce aad p).length = 4 := by
  rw [ccmMac, List.length_take, foldl_aes_length key h _ _ (by simp)]; rfl

/-- The ciphertext and its tag are 4 bytes longer than the payload (R716). -/
theorem ccmEncrypt_length (key nonce aad p : ByteString) (h : key.length = 16) :
    (ccmEncrypt key nonce aad p).length = p.length + 4 := by
  simp [ccmEncrypt, ccmKeyStream_length _ _ _ h, ccmMac_length _ _ _ _ h, ccmTagMask_length _ _ h]

/-- What CCM_Decrypt answers is 4 bytes shorter than its input (R717). -/
theorem ccmDecrypt_length (key nonce aad c p : ByteString) (h : key.length = 16)
    (hp : ccmDecrypt key nonce aad c = some p) : p.length + 4 = c.length := by
  unfold ccmDecrypt at hp
  split at hp
  · cases hp
  · rename_i hc
    simp only [Config.tagBytes] at hc hp
    split at hp
    · cases hp
      rw [xorBytes_length, ccmKeyStream_length _ _ _ h, List.length_take]; omega
    · cases hp

end Sys2Proof.Machine
end

