-- ==== Sys2Proof/Laws/PerInstr.lean ====
section
/-! SUPPORT. The families of lemmas with one lemma for each command. -/

namespace Sys2Proof.Laws

/-- The fields of a command's word pass the four checks of R308, and the word's reserved bits are 0 (R305, R307). -/
def EncodedWordLegal.Statement (i : Instr) : Prop :=
  (fieldsOf (encode i)).wellFormed = true ∧ (fieldsOf (encode i)).rsvd = 0

theorem EncodedWordLegal.nop : EncodedWordLegal.Statement .nop := ⟨by decide, by decide⟩
theorem EncodedWordLegal.zeroize : EncodedWordLegal.Statement .zeroize := ⟨by decide, by decide⟩
theorem EncodedWordLegal.ecKeygen : EncodedWordLegal.Statement .ecKeygen := ⟨by decide, by decide⟩
theorem EncodedWordLegal.ecImportPriv : EncodedWordLegal.Statement .ecImportPriv := ⟨by decide, by decide⟩
theorem EncodedWordLegal.ecExportPriv : EncodedWordLegal.Statement .ecExportPriv := ⟨by decide, by decide⟩
theorem EncodedWordLegal.ecImportPub : EncodedWordLegal.Statement .ecImportPub := ⟨by decide, by decide⟩
theorem EncodedWordLegal.ecAgree : EncodedWordLegal.Statement .ecAgree := ⟨by decide, by decide⟩
theorem EncodedWordLegal.hkdf (saltp ikmsrc : Bool) : EncodedWordLegal.Statement (.hkdf saltp ikmsrc) := by
  cases saltp <;> cases ikmsrc <;> exact ⟨by decide, by decide⟩
theorem EncodedWordLegal.hmac : EncodedWordLegal.Statement .hmac := ⟨by decide, by decide⟩
theorem EncodedWordLegal.ccmEnc : EncodedWordLegal.Statement .ccmEnc := ⟨by decide, by decide⟩
theorem EncodedWordLegal.ccmDec : EncodedWordLegal.Statement .ccmDec := ⟨by decide, by decide⟩
theorem EncodedWordLegal.devidEnc : EncodedWordLegal.Statement .devidEnc := ⟨by decide, by decide⟩
theorem EncodedWordLegal.frameEnc (padsrc : Bool) : EncodedWordLegal.Statement (.frameEnc padsrc) := by
  cases padsrc <;> exact ⟨by decide, by decide⟩
theorem EncodedWordLegal.frameDec : EncodedWordLegal.Statement .frameDec := ⟨by decide, by decide⟩
theorem EncodedWordLegal.crc16 : EncodedWordLegal.Statement .crc16 := ⟨by decide, by decide⟩

end Sys2Proof.Laws
end

