-- ==== Sys2Proof/Tests/Slice0.lean ====
section
/-! SUPPORT. Small tests, expected values from spec/95_test_vectors.md (named V-..., K...) or from the encoding tables of
30_encoding.md, and for each statement with hypotheses or clauses a state and operands that meet them. -/

namespace Sys2Proof.Tests

open Sys2Proof.Machine

-- One theorem after the other: the kernel evaluations below would otherwise wait in many threads at once.
set_option Elab.async false

/-! ### WellFormed: an ill-formed term for each check, refused (R308 (a) to (d)) -/

theorem test_wellFormed_opcode : (CmdFields.mk 0x99 false false 0).opcodeListed = false ∧
    (CmdFields.mk 0x99 false false 0).wellFormed = false := by decide
theorem test_wellFormed_reserved : (CmdFields.mk 0x20 false false 1).reservedZero = false ∧
    (CmdFields.mk 0x20 false false 1).wellFormed = false := by decide
theorem test_wellFormed_f0 : (CmdFields.mk 0x00 true false 0).f0Allowed = false ∧
    (CmdFields.mk 0x00 true false 0).wellFormed = false := by decide
theorem test_wellFormed_f1 : (CmdFields.mk 0x40 false true 0).f1Allowed = false ∧
    (CmdFields.mk 0x40 false true 0).wellFormed = false := by decide

/-! ### Decoding: every constructor's word, bit by bit from R301 and R306: RSVD (22), F1, F0, OPCODE (8) -/

theorem test_decode_nop : decode 0b00000000000000000000000000000000 = .ok .nop := by decide
theorem test_decode_zeroize : decode 0b00000000000000000000000000000001 = .ok .zeroize := by decide
theorem test_decode_ecKeygen : decode 0b00000000000000000000000000010000 = .ok .ecKeygen := by decide
theorem test_decode_ecImportPriv : decode 0b00000000000000000000000000010001 = .ok .ecImportPriv := by decide
theorem test_decode_ecExportPriv : decode 0b00000000000000000000000000010010 = .ok .ecExportPriv := by decide
theorem test_decode_ecImportPub : decode 0b00000000000000000000000000010011 = .ok .ecImportPub := by decide
theorem test_decode_ecAgree : decode 0b00000000000000000000000000010100 = .ok .ecAgree := by decide
theorem test_decode_hkdf_salt : decode 0b00000000000000000000000100100000 = .ok (.hkdf true false) := by decide
theorem test_decode_hkdf_shared : decode 0b00000000000000000000001000100000 = .ok (.hkdf false true) := by decide
theorem test_decode_hmac : decode 0b00000000000000000000000000100001 = .ok .hmac := by decide
theorem test_decode_ccmEnc : decode 0b00000000000000000000000000110000 = .ok .ccmEnc := by decide
theorem test_decode_ccmDec : decode 0b00000000000000000000000000110001 = .ok .ccmDec := by decide
theorem test_decode_devidEnc : decode 0b00000000000000000000000000110010 = .ok .devidEnc := by decide
theorem test_decode_frameEnc_pad : decode 0b00000000000000000000000101000000 = .ok (.frameEnc true) := by decide
theorem test_decode_frameDec : decode 0b00000000000000000000000001000001 = .ok .frameDec := by decide
theorem test_decode_crc16 : decode 0b00000000000000000000000001000010 = .ok .crc16 := by decide
/-- V-W3 to V-W8: words that are illegal. -/
theorem test_decode_illegal : decode 0x00000100 = .error .flag0 ∧ decode 0x00000200 = .error .flag1 ∧
    decode 0x00000099 = .error .unknownOpcode ∧ decode 0x00000420 = .error .reservedBits ∧
    decode 0x00000240 = .error .flag1 ∧ decode 0x80000000 = .error .reservedBits := by decide
theorem test_decodeTableWord : decodeTableWord 32 0x320 = some (.hkdf true true) ∧ decodeTableWord 32 0x340 = none := by
  decide

/-! ### One step of each command -/

/-- The state after a command's completion. -/
def after (i : Instr) (s : State) : State :=
  match exec i s with
  | .next t => t
  | .fault _ => s
  | .refused _ => s

theorem exec_after (i : Instr) (s : State) : exec i s = .next (after i s) := by cases i <;> rfl

/-- The first bytes of a buffer. -/
def first (s : State) (b : Buffer) (n : Nat) : ByteString := (s.buf b).take n

/-- Reset, then a PRIV of `n` bytes (V-EC rows). -/
def withPriv (n v : Nat) : State := { State.reset.fillBuf .priv (beBytes n v) with privLen := BitVec.ofNat 16 n }

/-- Reset, then a SALT and an IN (V-H rows). -/
def withSaltIn (salt input : ByteString) : State :=
  { (State.reset.fillBuf .salt salt).fillBuf .input input with
    saltLen := BitVec.ofNat 16 salt.length, inLen := BitVec.ofNat 16 input.length }

/-- Reset, then the NONCE of section 2.7, an AAD and an IN (V-ENC and V-DEC rows). -/
def withCcm (aad input : ByteString) : State :=
  { ((State.reset.fillBuf .nonce (beBytes 12 0x000102030405060708090a0b)).fillBuf .aad aad).fillBuf .input input with
    aadLen := BitVec.ofNat 16 aad.length, inLen := BitVec.ofNat 16 input.length }

/-- Reset, then the IV of section 2.11, a CTRL, a COUNTER and an IN (V-FE and V-FD rows). -/
def withFrame (ctrl : BitVec 2) (counter : BitVec 32) (input : ByteString) : State :=
  { State.reset.fillBuf .input input with
    ctrl := ctrl, counter := counter, iv := 0x04030201, inLen := BitVec.ofNat 16 input.length }

/-- V-W1. -/
theorem test_nop : (after .nop State.reset).result = 0x0000 ∧ (after .nop State.reset).irqStat = 1 := by decide +kernel

/-- V-W2, with a key and IRQ_EN set before. -/
theorem test_zeroize :
    after .zeroize { withPriv 2 0x0102 with d := 5, dValid := true, irqEn := 7 } =
      { State.reset with result := 0x0100, irqEn := 7, irqStat := 1 } := by decide +kernel

/-- V-EC1. -/
theorem test_ecKeygen :
    (fun t : State => (t.result, t.d, t.dValid, first t .pub 64, t.entropy))
      (after .ecKeygen { State.reset with entropy := [some 0, none] }) =
    (0x1000, 1, true,
      beBytes 32 0x6B17D1F2E12C4247F8BCE6E563A440F277037D812DEB33A0F4A13945D898C296 ++
        beBytes 32 0x4FE342E2FE1A7F9B8EE7EB4A7C0F9E162BCE33576B315ECECBB6406837BF51F5, [none]) := by decide +kernel

/-- V-EC2, with a valid key before. -/
theorem test_ecKeygen_fail :
    (fun t : State => (t.result, t.irqStat, t.d, t.dValid))
      (after .ecKeygen { State.reset with entropy := [none], d := 7, dValid := true }) =
    (0x1008, 3, 0, false) := by decide +kernel

/-- V-EC3 with V-C2. -/
theorem test_ecImportPriv :
    (fun t : State => (t.result, t.status, first t .pub 64)) (after .ecImportPriv (withPriv 1 2)) =
    (0x1100, 2,
      beBytes 32 0x7cf27b188d034f7e8a52380304b51ac3c08969e277f21b35a60b48fc47669978 ++
        beBytes 32 0x07775510db8ed040293d9ac69f7430dbba7dade63ce982299e04b79d227873d1) := by decide +kernel

/-- V-EC6, V-EC7, V-EC8: n, zero, and the two length errors. -/
theorem test_ecImportPriv_fail :
    (after .ecImportPriv (withPriv 32 0xffffffff00000000ffffffffffffffffbce6faada7179e84f3b9cac2fc632551)).result = 0x1106 ∧
    (after .ecImportPriv (withPriv 36 0)).result = 0x1106 ∧ (after .ecImportPriv (withPriv 0 0)).result = 0x1102 ∧
    (after .ecImportPriv (withPriv 37 1)).result = 0x1102 := by decide +kernel

/-- V-EC9: the minimal encoding, over an old PRIV. -/
theorem test_ecExportPriv :
    (fun t : State => (t.result, t.privLen, first t .priv 36))
      (after .ecExportPriv { withPriv 5 0xffffffffff with d := 0x0102, dValid := true }) =
    (0x1200, 2, [0x01, 0x02] ++ zeros 34) := by decide +kernel

/-- V-EC10. -/
theorem test_ecExportPriv_fail : (after .ecExportPriv State.reset).result = 0x1206 := by decide +kernel

/-- V-EC11, V-EC13. -/
theorem test_ecImportPub :
    (fun t : State => (t.result, t.peerValid))
      (after .ecImportPub (State.reset.fillBuf .peer (beBytes 32 baseX ++ beBytes 32 baseY))) = (0x1300, true) ∧
    (fun t : State => (t.result, t.peerValid))
      (after .ecImportPub
        { State.reset.fillBuf .peer (beBytes 32 baseX ++ beBytes 32 (baseY + 1)) with peerValid := true }) =
      (0x1306, false) := by decide +kernel

/-- V-EC14, V-EC15. -/
theorem test_ecImportPub_fail : (after .ecImportPub State.reset).result = 0x1306 ∧
    (after .ecImportPub (State.reset.fillBuf .peer (beBytes 32 fieldPrime ++ beBytes 32 baseY))).result = 0x1306 := by
  decide +kernel

/-- V-AG1. -/
theorem test_ecAgree :
    (fun t : State => (t.result, t.sharedValid, first t .shared 32))
      (after .ecAgree { State.reset.fillBuf .peer (beBytes 32 baseX ++ beBytes 32 baseY) with d := 2, dValid := true }) =
    (0x1400, true, beBytes 32 0x7cf27b188d034f7e8a52380304b51ac3c08969e277f21b35a60b48fc47669978) := by decide +kernel

/-- V-AG4: the shared secret of an earlier agreement is cleared. -/
theorem test_ecAgree_fail :
    (fun t : State => (t.result, t.sharedValid, first t .shared 32))
      (after .ecAgree { State.reset.fillBuf .shared (beBytes 32 7) with d := 2, dValid := true, sharedValid := true }) =
    (0x1407, false, zeros 32) := by decide +kernel

/-- V-KDF4. -/
theorem test_hkdf :
    (fun t : State => (t.result, t.outLen, first t .output 65)) (after (.hkdf false false) State.reset) =
    (0x2000, 64,
      beBytes 32 0x4fa781435a703b681821e2c7c6fbdf96e9ef2a7831820af62fe02bcead95728b ++
        beBytes 32 0x70f1b7a032ba8a3c3ec79a448a25f47496367a317751d1ff03378b5204d1f672 ++ [0]) := by decide +kernel

/-- V-W9: the salt present and empty. -/
theorem test_hkdf_salt :
    (fun t : State => (t.result, first t .output 64)) (after (.hkdf true false) State.reset) =
    (0x2000,
      beBytes 32 0x8e774ccf52e0b9b93ee8b73cdbf02e7a3c4d79d861aa51b7a6d49528dd833145 ++
        beBytes 32 0xe642d522af81509e6add41d53de47435ee21eaa6027e6fff143a159122b73ecd) := by decide +kernel

/-- V-H1: "Hi There" under 20 bytes 0b. -/
theorem test_hmac :
    (fun t : State => (t.result, t.outLen, first t .output 32))
      (after .hmac (withSaltIn (List.replicate 20 0x0b) (beBytes 8 0x4869205468657265))) =
    (0x2100, 32, beBytes 32 0xb0344c61d8db38535ca8afceaf0bf12b881dc200c9833da726e9376c2e32cff7) := by decide +kernel

/-- V-ENC3. -/
theorem test_ccmEnc :
    (fun t : State => (t.result, t.outLen, first t .output 10)) (after .ccmEnc (withCcm [0xaa] [1, 2, 3, 4])) =
    (0x3000, 8, beBytes 8 0xc78d7a22f74e9bb2 ++ [0, 0]) := by decide +kernel

/-- V-ENC4: two key-stream blocks, no associated data. -/
theorem test_ccmEnc_two_blocks :
    first (after .ccmEnc (withCcm [] ((List.range 20).map (BitVec.ofNat 8)))) .output 24 =
      beBytes 24 0xc68e7b25d2a79c888221f3d71a18b0785b1061bde991d64d := by decide +kernel

/-- V-DEC1. -/
theorem test_ccmDec :
    (fun t : State => (t.result, t.outLen, first t .output 8))
      (after .ccmDec (withCcm [0xaa] (beBytes 8 0xc78d7a22f74e9bb2))) =
    (0x3100, 4, [1, 2, 3, 4, 0, 0, 0, 0]) := by decide +kernel

/-- V-DEC4: a tag bit flipped. -/
theorem test_ccmDec_tampered :
    (fun t : State => (t.result, t.irqStat, t.outLen, first t .output 8))
      (after .ccmDec (withCcm [0xaa] (beBytes 8 0xc78d7a22f74e9b32))) =
    (0x3103, 3, 0, zeros 8) := by decide +kernel

/-- V-DID1: "ABCDEFGH" under 16 bytes FF. -/
theorem test_devidEnc :
    (fun t : State => (t.result, t.outLen, first t .output 12))
      (after .devidEnc
        { (State.reset.fillBuf .key (List.replicate 16 0xFF)).fillBuf .input (beBytes 8 0x4142434445464748) with
          inLen := 8 }) =
    (0x3200, 12, beBytes 12 0x6378bc9f079fb56a5b15cba7) := by decide +kernel

/-- V-FE4, but for the 2 CRC bytes. -/
theorem test_frameEnc :
    (fun t : State => (t.result, t.counter, t.outLen, first t .output 18))
      (after (.frameEnc true) (withFrame 3 0x12345 (beBytes 8 0xaa00051020304050))) =
    (0x4000, 0x12346, 20, beBytes 18 0x55ab0545239f5d23b3daeb79f110eb792131) := by decide +kernel

/-- V-FE2, its ciphertext and tag: the pad from the entropy source. -/
theorem test_frameEnc_entropy :
    (fun t : State => (t.result, t.counter, slice (t.buf .output) 5 18))
      (after (.frameEnc false) { withFrame 3 1 (beBytes 8 0xaa00051020304050) with entropy := [some 0xdeadbeef] }) =
    (0x4000, 2, beBytes 13 0x2eb3b73be8e4189ecc1ff43b29) := by decide +kernel

/-- V-FD8: CTRL = 2, so that the trailer is not looked at. -/
theorem test_frameDec :
    (fun t : State => (t.result, t.outLen, t.rxSize, t.rxCounter, first t .output 8))
      (after .frameDec (withFrame 2 0 (beBytes 20 0x55ab0501002eb3b73be83ab520237f1ac3ac04fb))) =
    (0x4100, 8, 5, 1, beBytes 8 0x55ab051020304050) := by decide +kernel

/-- V-FD11: the counter's low byte altered. -/
theorem test_frameDec_tampered :
    (fun t : State => (t.result, t.outLen, t.rxCounter))
      (after .frameDec (withFrame 2 0 (beBytes 20 0x55ab0502002eb3b73be83ab520237f1ac3ac04fa))) =
    (0x4103, 0, 0) := by decide +kernel

/-- R803: `CRC_RESULT = c0 + 256*c1`, and OUT_LEN stays; V-CRC5: LEN_ERR zeroes CRC_RESULT. -/
theorem test_crc16 :
    (after .crc16 { State.reset with outLen := 9 }).crcResult =
      BitVec.ofNat 16 ((Config.crc16Fn []).1.toNat + 256 * (Config.crc16Fn []).2.toNat) ∧
    (after .crc16 { State.reset with outLen := 9 }).outLen = 9 ∧
    (after .crc16 { State.reset with inLen := 513, crcResult := 0x1234 }).crcResult = 0 := by
  refine ⟨?_, rfl, rfl⟩
  show BitVec.ofNat 16 (intLE (crcTrailer (State.inOperand _))) = _
  rw [show State.inOperand { State.reset with outLen := 9 } = [] from rfl]
  simp [crcTrailer, intLE]

/-- V-W5 and V-W11: an illegal word leaves OUT and OUT_LEN. -/
theorem test_illegal_word :
    engineMove { State.reset with outLen := 8, fsm := .busy 0x99 } =
      .next { State.reset with outLen := 8, result := 0x9901, irqStat := 3 } := rfl

/-- The host's question: the first instruction after reset. -/
theorem test_withFetchWord : step (State.reset.withFetchWord 32 0x12) = exec .ecExportPriv (State.reset.withFetchWord 32 0x12) :=
  rfl

/-! ### Check values of the algorithms -/

/-- K1. -/
theorem test_aes : aes (beBytes 16 0x000102030405060708090a0b0c0d0e0f) (beBytes 16 0x00112233445566778899aabbccddeeff) =
    beBytes 16 0x69c4e0d86a7b0430d8cdb78070b4c55a := by decide +kernel
/-- K3. -/
theorem test_sha256 : sha256 [0x61, 0x62, 0x63] =
    beBytes 32 0xba7816bf8f01cfea414140de5dae2223b00361a396177a9cb410ff61f20015ad := by decide +kernel
/-- V-C1 and V-C3. -/
theorem test_curve : onCurve baseX baseY = true ∧
    pointMul 3 basePoint =
      .affine 0x5ecbe4d1a6330a44c8f7ef951d4bf165e6c6b721efada985fb41661bc6e7fd6c
        0x8734640c4998ff7e374b06ce1a64a2ecd82ab036384fb83d9a79b127a27d5032 := by decide +kernel

/-! ### The window -/

/-- V-B1 to V-B3, V-B6. -/
theorem test_registers : State.reset.windowRead 0x000 4 = .readData 0x4D534331 ∧
    State.reset.windowRead 0x008 4 = .readData 0x00000003 ∧
    (State.reset.windowWrite 0x008 4 0xFFFFFFFF).windowRead 0x008 4 = .readData 0x00000003 ∧
    (State.reset.windowWrite 0x024 4 0x0001FFFF).windowRead 0x024 4 = .readData 0x0000FFFF := by decide +kernel
/-- V-B4. -/
theorem test_key_write : (State.reset.windowWrite 0x100 4 0x11223344).windowRead 0x100 4 = .readData 0 ∧
    first (State.reset.windowWrite 0x100 4 0x11223344) .key 5 = [0x44, 0x33, 0x22, 0x11, 0] := by decide +kernel
/-- V-B5. -/
theorem test_unmapped : [0x054, 0x11C, 0x130, 0x224, 0x2E0].all (fun off => accessLocation off 4 == none) = true ∧
    accessLocation 0x100 2 = none ∧ accessLocation 0x002 4 = none := by decide +kernel
/-- V-B7, V-B8. -/
theorem test_write_types : State.reset.windowWrite 0x240 4 0x12345678 = State.reset ∧
    ({ State.reset with irqStat := 7 } : State).windowWrite 0x01C 4 0x000000FF = State.reset := by decide +kernel
/-- V-B9, V-B10. -/
theorem test_busy_write_and_irq :
    ({ State.reset with fsm := .busy 0x140 } : State).windowWrite 0x024 4 5 =
      { State.reset with fsm := .busy 0x140, irqStat := 4 } ∧
    ({ State.reset with irqEn := 1, irqStat := 2 } : State).irq = false ∧
    ({ State.reset with irqEn := 1, irqStat := 3 } : State).irq = true := by decide +kernel
/-- V-EC12: the write of a PEER word. -/
theorem test_peer_write : (({ State.reset with peerValid := true } : State).windowWrite 0x2BC 4 0xF651BF37).peerValid = false := by
  decide +kernel
/-- P1's first lines. -/
theorem test_assemble :
    assemble [.wr 0x050 0x04030201, .load .input (beBytes 5 0xaa00051020), .run (.frameEnc true), .dump .output 5] =
    [writeAt 0x050 0x04030201, writeAt 0x400 0x100500AA, writeAt 0x404 0x00000020, writeAt 0x010 0x00000140,
     .pollIdle, readAt 0x600, readAt 0x604] := by rfl

/-! ### Witnesses: for each statement with hypotheses, a state and operands that meet them -/

/-- Reset with a command word in flight. -/
def inFlight (w : Word) : State := { State.reset with fsm := .busy w }

/-- IllegalWordChangesOnlyTheCompletion: a word of each case of R308. -/
theorem witness_illegal : (inFlight 0x02).fsm = .busy 0x02 ∧ (fieldsOf 0x02).wellFormed = false ∧
    (fieldsOf 0x400).wellFormed = false ∧ (fieldsOf 0x121).wellFormed = false ∧
    (fieldsOf 0x240).wellFormed = false := by decide

/-- StepRunsTheDecodedInstruction: both schedules. -/
theorem witness_stepRuns : (inFlight 0x320).fsm = .busy 0x320 ∧ decode 0x320 = .ok (.hkdf true true) ∧
    (inFlight 0x320).schedule = [] ∧
    ({ inFlight 0x320 with schedule := [.engine, .host] } : State).schedule = .engine :: [.host] := by decide

/-- StepMovesTheScheduledAgent: a state for each clause, an illegal word in flight with nothing scheduled among them. -/
theorem witness_stepMoves : (inFlight 0x99).schedule = [] ∧ (inFlight 0x99).fsm = .busy 0x99 ∧ State.reset.fsm = .idle ∧ State.reset.schedule = [] ∧ State.reset.hostProgram = [] ∧
    ({ State.reset with schedule := [.engine] } : State).schedule = .engine :: [] ∧
    ({ State.reset with schedule := [.host] } : State).schedule = .host :: [] ∧
    ({ State.reset with schedule := [.platform] } : State).schedule = .platform :: [] := by decide

/-- FailedOutWriterShowsNoResult: HMAC with SALT_LEN 65. -/
theorem witness_failedOut : outWriter .hmac = true ∧
    exec .hmac { State.reset with saltLen := 65 } = .next (after .hmac { State.reset with saltLen := 65 }) ∧
    (after .hmac { State.reset with saltLen := 65 }).errCode ≠ 0 :=
  ⟨by decide, exec_after _ _, by decide +kernel⟩

/-- OnlyTwoCommandsDependOnEntropy, and its two exceptions. -/
theorem witness_entropy : drawsEntropy (.frameEnc true) = false ∧
    exec (.frameEnc true) State.reset = .next (after (.frameEnc true) State.reset) ∧
    drawsEntropy (.frameEnc false) = true ∧ drawsEntropy .ecKeygen = true :=
  ⟨by decide, exec_after _ _, by decide, by decide⟩

/-- CommandsNeverWriteTheHostsBuffers: EC_EXPORT_PRIV and KEY. -/
theorem witness_hostBuffers : Instr.ecExportPriv ≠ .zeroize ∧
    exec .ecExportPriv State.reset = .next (after .ecExportPriv State.reset) ∧
    Buffer.key ∈ [Buffer.key, .nonce, .aad, .salt, .ikm, .peer, .input] :=
  ⟨by decide, exec_after _ _, by decide⟩

/-- ResetGivesTheResetValues: a reset that abandons a command. -/
theorem witness_reset : ({ inFlight 0x30 with schedule := [.platform] } : State).schedule = .platform :: [] := rfl

/-- KeygenInstallsTheDrawnScalar: both answers; FrameEncBuildsTheFrame: a failing source. -/
theorem witness_keygen : ({ State.reset with entropy := [some 5] } : State).entropyAnswer = some 5 ∧
    ({ State.reset with entropy := [none] } : State).entropyAnswer = none ∧
    ({ State.reset with entropy := [none] } : State).entropyBytes 4 = none := by decide

/-- DrawnScalarsAreExactlyTheRange: the ends of the range. -/
theorem witness_drawn : scalarAnswer 0 = 1 ∧ scalarAnswer (groupOrder - 2) = groupOrder - 1 ∧
    scalarAnswer (groupOrder - 1) = 1 := by decide +kernel

/-- ImportPrivInstallsTheScalar: lengths 0, 1, 36, 37 and scalars 0, 1, n-1, n. -/
theorem witness_importPriv :
    [(0, 1), (1, 1), (36, 1), (37, 1), (32, 0), (32, groupOrder - 1), (32, groupOrder)].map
      (fun x => (after .ecImportPriv (withPriv x.1 x.2)).errCode) = [2, 0, 0, 2, 6, 0, 6] := by decide +kernel

/-- MinimalEncodingIsShortest: the ends of the range, and another string of the same integer. -/
theorem witness_minimal : 1 ≤ 2 ^ 256 - 1 ∧ 2 ^ 256 - 1 < 2 ^ 256 ∧ minBE 1 = [1] ∧ intBE [0, 1] = 1 ∧
    minBE 255 = [255] ∧ minBE 256 = [1, 0] ∧ (minBE (2 ^ 256 - 1)).length = 32 := by decide +kernel

/-- ExportThenImportRestoresTheScalar, ExportPrivWritesTheMinimalScalar: both valid-bit values. -/
theorem witness_export : ({ State.reset with d := 1, dValid := true } : State).dValid = true ∧
    validScalar ({ State.reset with d := 1, dValid := true } : State).d.toNat = true ∧
    State.reset.dValid = false := by decide +kernel

/-- AgreeWritesTheSharedSecret: the three outcomes; `D = 0` (no run reaches it with D_VALID = 1) gives `O`. -/
theorem witness_agree : validPub (rawPublicKey basePoint) = true ∧
    (after .ecAgree { State.reset.fillBuf .peer (rawPublicKey basePoint) with d := 1, dValid := true }).errCode = 0 ∧
    pointMul 0 (decodePublicKey (rawPublicKey basePoint)) = .infinity ∧
    (after .ecAgree { State.reset.fillBuf .peer (rawPublicKey basePoint) with d := 0, dValid := true }).errCode = 7 ∧
    (after .ecAgree State.reset).errCode = 7 := by decide +kernel

/-- ScalarProductDoublesAndAdds: the cases of R504: opposite points, the doubling `2G` (V-C2), the chord `2G + G`
(V-C3), and equal points with `y = 0`, where the case of `O` comes first. -/
theorem witness_groupLaw : (baseY + (fieldPrime - baseY)) % fieldPrime = 0 ∧
    pointAdd (.affine baseX baseY) (.affine baseX (fieldPrime - baseY)) = .infinity ∧
    (baseY + baseY) % fieldPrime ≠ 0 ∧
    pointAdd basePoint basePoint =
      .affine 0x7cf27b188d034f7e8a52380304b51ac3c08969e277f21b35a60b48fc47669978
        0x07775510db8ed040293d9ac69f7430dbba7dade63ce982299e04b79d227873d1 ∧
    pointAdd (pointAdd basePoint basePoint) basePoint =
      .affine 0x5ecbe4d1a6330a44c8f7ef951d4bf165e6c6b721efada985fb41661bc6e7fd6c
        0x8734640c4998ff7e374b06ce1a64a2ecd82ab036384fb83d9a79b127a27d5032 ∧
    pointAdd (.affine 1 0) (.affine 1 0) = .infinity := by decide +kernel

/-- ScalarProductDoublesAndAdds, RawPublicKeyRoundTrips: the ends of the ranges. -/
theorem witness_ranges : 0 < 2 ^ 255 ∧ 2 ^ 255 - 1 < 2 ^ 255 ∧ baseX < 2 ^ 256 ∧ baseY < 2 ^ 256 ∧
    2 ^ 256 - 1 < 2 ^ 256 := by decide +kernel

/-- HkdfWritesTheKeyMaterial: SALT_LEN and IKM_LEN 64 and 65, in the forms that use them and those that do not. -/
theorem witness_hkdf :
    ([(true, false, 64, 64, false), (true, false, 65, 0, false), (true, false, 0, 65, false),
      (false, false, 65, 64, false), (true, true, 64, 65, true), (false, true, 0, 0, false)].map
      fun x => (after (.hkdf x.1 x.2.1)
        { State.reset with
          saltLen := BitVec.ofNat 16 x.2.2.1, ikmLen := BitVec.ofNat 16 x.2.2.2.1, sharedValid := x.2.2.2.2 }).errCode) =
      [0, 2, 2, 0, 0, 6] := by decide +kernel

/-- HmacWritesTheDigest: SALT_LEN 64 and 65, IN_LEN 512 and 513. -/
theorem witness_hmac :
    ([(64, 512), (65, 512), (64, 513)].map fun x => (after .hmac
      { State.reset with saltLen := BitVec.ofNat 16 x.1, inLen := BitVec.ofNat 16 x.2 }).errCode) = [0, 2, 2] := by
  decide +kernel

/-- CcmEncWritesCiphertextAndTag, DevidEncUsesTheFixedNonce: AAD_LEN 64 and 65, IN_LEN 508 and 509. -/
theorem witness_ccmEnc :
    ([(64, 508), (65, 508), (64, 509)].map fun x => (after .ccmEnc
      { State.reset with aadLen := BitVec.ofNat 16 x.1, inLen := BitVec.ofNat 16 x.2 }).errCode) = [0, 2, 2] ∧
    ([(65, 508), (0, 509)].map fun x => (after .devidEnc
      { State.reset with aadLen := BitVec.ofNat 16 x.1, inLen := BitVec.ofNat 16 x.2 }).errCode) = [0, 2] := by
  decide +kernel

/-- CcmDecWritesThePlaintextOrFails: IN_LEN 3 and 513, AAD_LEN 65, a wrong and a right tag (V-DEC2, V-DEC8, V-DEC10). -/
theorem witness_ccmDec :
    ([(0, 3), (0, 4), (0, 513), (65, 4)].map fun x => (after .ccmDec
      { State.reset with aadLen := BitVec.ofNat 16 x.1, inLen := BitVec.ofNat 16 x.2 }).errCode) = [3, 3, 2, 2] ∧
    (after .ccmDec (withCcm [] (beBytes 4 0x277f6c09))).errCode = 0 := by decide +kernel

/-- CcmDecryptInvertsEncrypt: a 16-byte key. -/
theorem witness_ccm_key : (zeros 16).length = 16 := rfl

/-- The host loops an OUT back into IN. -/
def loopedBack (t u : State) : State := { u.fillBuf .input (t.buf .output) with inLen := t.outLen }

theorem buf_with_inLen (u : State) (n : BitVec 16) (b : Buffer) : ({ u with inLen := n } : State).buf b = u.buf b := rfl
theorem buf_with_rxCtrHi (u : State) (n : BitVec 16) (b : Buffer) : ({ u with rxCtrHi := n } : State).buf b = u.buf b := rfl
theorem buf_with_fsm (u : State) (f : Fsm) (b : Buffer) : ({ u with fsm := f } : State).buf b = u.buf b := rfl

theorem loopedBack_input (t u : State) : (loopedBack t u).buf .input = t.buf .output := by
  rw [loopedBack, buf_with_inLen, State.buf_fillBuf_self, State.buf_length]
  simp [Buffer.size, List.take_of_length_le]

theorem loopedBack_buf (t u : State) (b : Buffer) (h : b ≠ .input) : (loopedBack t u).buf b = u.buf b := by
  rw [loopedBack, buf_with_inLen, u.buf_fillBuf_of_ne (t.buf .output) h]

/-- CcmDecReturnsWhatCcmEncEncrypted: the longest lengths. -/
theorem witness_ccm_roundTrip :
    ∃ s t u : State, s.aadLen.toNat ≤ 64 ∧ s.inLen.toNat ≤ 508 ∧ exec .ccmEnc s = .next t ∧
      u.buf .key = s.buf .key ∧ u.buf .nonce = s.buf .nonce ∧ u.buf .aad = s.buf .aad ∧ u.aadLen = s.aadLen ∧
      u.inLen = t.outLen ∧ (u.buf .input).take t.outLen.toNat = (t.buf .output).take t.outLen.toNat :=
  let s : State := { State.reset with aadLen := 64, inLen := 508 }
  ⟨s, after .ccmEnc s, loopedBack (after .ccmEnc s) s, by decide, by decide, exec_after _ _,
    loopedBack_buf _ _ _ (by decide), loopedBack_buf _ _ _ (by decide), loopedBack_buf _ _ _ (by decide), rfl, rfl,
    by rw [loopedBack_input]⟩

/-- Crc16WritesTheTwoBytes: IN_LEN 512 and 513. -/
theorem witness_crc16 :
    ([512, 513].map fun n => (after .crc16 { State.reset with inLen := BitVec.ofNat 16 n }).errCode) = [0, 2] := by
  decide +kernel

/-- FrameEncBuildsTheFrame, FrameCounterNeverWraps: IN_LEN 2, 3, 500, 501; the last counters, with and without
AUTOINC (V-FE6, V-FE7); the entropy source's failure (V-FE3). -/
theorem witness_frameEnc :
    ([2, 3, 500, 501].map fun n =>
      (after (.frameEnc true) { State.reset with inLen := BitVec.ofNat 16 n }).errCode) = [2, 0, 0, 2] ∧
    ([(3, 0xFFFFFFFE), (3, 0xFFFFFFFF), (1, 0xFFFFFFFF)].map fun x =>
      (after (.frameEnc true) (withFrame x.1 x.2 [1, 2, 3])).errCode) = [0, 9, 0] ∧
    ([(3, 0xFFFFFFFE), (3, 0xFFFFFFFF), (1, 0xFFFFFFFF)].map fun x =>
      (after (.frameEnc true) (withFrame x.1 x.2 [1, 2, 3])).counter) = [0xFFFFFFFF, 0xFFFFFFFF, 0xFFFFFFFF] ∧
    (after (.frameEnc false) { withFrame 3 1 [1, 2, 3] with entropy := [none] }).errCode = 8 := by decide +kernel

/-- FrameDecParsesTheFrame: IN_LEN 14, 15, 513, a wrong header, a wrong tag, a right one (V-FD5, V-FD6, V-FD8, V-FD13). -/
theorem witness_frameDec :
    ([(14, 0), (513, 0), (15, 0), (15, 0x55ac <<< 104), (15, 0x55ab <<< 104)].map fun x => (after .frameDec
      { withFrame 2 0 (beBytes 15 x.2) with inLen := BitVec.ofNat 16 x.1 }).errCode) = [4, 2, 4, 4, 3] ∧
    (after .frameDec (withFrame 2 0 (beBytes 20 0x55ab0501002eb3b73be83ab520237f1ac3ac04fa))).errCode = 0 := by
  decide +kernel

/-- FrameDecParsesTheFrame, CRC_ERR: whatever CRC16_FN is, one of two trailers does not match. -/
theorem witness_frameDec_crc (f : ByteString) :
    crcTrailer f ≠ [0x00, 0x00] ∨ crcTrailer f ≠ [0x00, 0x01] := by
  by_cases h : crcTrailer f = [0x00, 0x00]
  · rw [h]; right; decide
  · exact .inl h

/-- FrameNonceIsInjectiveInTheCounter: the ends of the range. -/
theorem witness_frameNonce : 2 ^ 32 - 1 < 2 ^ 32 ∧
    frameNonce [1, 2, 3, 4] (2 ^ 32 - 1) = frameNonce [1, 2, 3, 4] (2 ^ 32 - 1) ∧
    frameNonce [1, 2, 3, 4] 1 ≠ frameNonce [1, 2, 3, 4] 2 := by decide +kernel

/-- FrameDecReturnsWhatFrameEncFramed: a counter whose upper half is not 0. -/
theorem witness_frame_roundTrip :
    ∃ s t u : State, exec (.frameEnc true) s = .next t ∧ t.errCode = 0 ∧ u.buf .key = s.buf .key ∧ u.iv = s.iv ∧
      u.rxCtrHi = s.counter.extractLsb' 16 16 ∧ u.inLen = t.outLen ∧
      (u.buf .input).take t.outLen.toNat = (t.buf .output).take t.outLen.toNat :=
  let s : State := withFrame 3 0x12345 (beBytes 8 0xaa00051020304050)
  ⟨s, after (.frameEnc true) s, { loopedBack (after (.frameEnc true) s) s with rxCtrHi := 1 }, exec_after _ _,
    by decide +kernel, (buf_with_rxCtrHi _ _ _).trans (loopedBack_buf _ _ _ (by decide)), rfl, by decide +kernel, rfl,
    congrArg (List.take _) ((buf_with_rxCtrHi _ _ _).trans (loopedBack_input (after (.frameEnc true) s) s))⟩

/-- A state with a key pair, about to export it. -/
def keyed : State := { State.reset.setKeyPair 2 with fsm := .busy 0x12 }

theorem buf_setKeyPair (s : State) (d : Nat) (b : Buffer) :
    (s.setKeyPair d).buf b = (s.fillBuf .pub (rawPublicKey (pointMul d basePoint))).buf b := rfl

theorem mem_setKeyPair (s : State) (d : Nat) (f : Fsm) :
    ({ s.setKeyPair d with fsm := f } : State).mem = (s.fillBuf .pub (rawPublicKey (pointMul d basePoint))).mem := rfl

theorem keyed_buf (b : Buffer) (h : b ≠ .pub) : keyed.buf b = State.reset.buf b := by
  rw [keyed, buf_with_fsm, buf_setKeyPair, State.buf_fillBuf_of_ne _ _ h]

theorem keyed_pub : keyed.buf .pub = rawPublicKey (pointMul 2 basePoint) := by
  rw [keyed, buf_with_fsm, buf_setKeyPair,
    (State.reset.fillBuf_filled .pub _ (by rw [rawPublicKey_length]; decide)).bytes, rawPublicKey_length]
  exact List.append_nil _

/-- EveryStepKeepsTheInvariant: a state with a valid key, and its step. -/
theorem witness_invariant : keyed.Inv ∧ step keyed = .next (after .ecExportPriv keyed) where
  left :=
    { canonical := by rw [keyed, mem_setKeyPair]; exact State.fillBuf_wf _ _ _ State.reset_mem_wf
      inBuffers := by rw [keyed, mem_setKeyPair]; exact State.fillBuf_inBuffers _ _ _ fun c hc => by cases hc
      scalarRange := fun _ => by decide +kernel
      publicKey := fun _ => keyed_pub
      noKey := fun h => by cases h
      peerChecked := fun h => by cases h
      noShared := fun _ => by rw [keyed_buf _ (by decide)]; decide +kernel
      outLenFits := by decide
      outTail := fun i _ => by
        rw [keyed_buf _ (by decide), show State.reset.buf .output = zeros 512 by decide +kernel, byteAt_zeros]
      codes := by decide }
  right := rfl

/-- OffsetsReachTheMapsLocations: both ends of each hole and of each buffer. -/
theorem witness_holes :
    ([0x054, 0x0FC, 0x11C, 0x13C, 0x224, 0x23C, 0x2E0, 0x3FC].all fun off => off % 4 == 0 && accessLocation off 4 == none) ∧
    ([0x000, 0x050, 0x100, 0x118, 0x140, 0x220, 0x240, 0x2DC, 0x400, 0x7FC].all fun off =>
      off % 4 == 0 && accessLocation off 4 != none) := by decide +kernel

theorem witness_bufferEnds :
    ([(0x100, .key, 0), (0x10C, .key, 12), (0x110, .nonce, 0), (0x118, .nonce, 8), (0x140, .aad, 0), (0x17C, .aad, 60),
      (0x180, .salt, 0), (0x1BC, .salt, 60), (0x1C0, .ikm, 0), (0x1FC, .ikm, 60), (0x200, .priv, 0), (0x220, .priv, 32),
      (0x240, .pub, 0), (0x27C, .pub, 60), (0x280, .peer, 0), (0x2BC, .peer, 60), (0x2C0, .shared, 0),
      (0x2DC, .shared, 28), (0x400, .input, 0), (0x5FC, .input, 508), (0x600, .output, 0),
      (0x7FC, .output, 508)] : List (Nat × Buffer × Nat)).all
      (fun x => accessLocation x.1 4 == some (.buf x.2.1 x.2.2)) = true := by decide +kernel

/-- AccessesAnswerAValueOrABusError: a mapped register and a mapped word, and refused accesses: a hole, a wrong width, a
misaligned offset. -/
theorem witness_accesses : accessLocation 0x02C 4 = some (.reg .saltLen) ∧
    accessLocation 0x600 4 = some (.buf .output 0) ∧
    0x054 < 0x800 ∧ 0x054 % 4 = 0 ∧ locate 0x054 = none ∧ 2 ≠ 4 ∧ 0x7FE < 0x800 ∧ 0x7FE % 4 ≠ 0 := by
  decide +kernel

/-- WritesWhileBusyAreDropped, OperandsAreStableWhileBusy: the three cases. -/
theorem witness_busy : (inFlight 0x30).fsm = .busy 0x30 ∧ accessLocation 0x018 4 = some (.reg .irqEn) ∧
    accessLocation 0x01C 4 = some (.reg .irqStat) ∧ accessLocation 0x020 4 = some (.reg .aadLen) ∧
    accessLocation 0x7FC 4 = some (.buf .output 508) := by decide +kernel

/-- CmdWriteIssuesTheWord, RegisterWritesKeepTheUsedBits, PeerWriteClearsPeerValid, BufferWordsUseLittleEndianLanes. -/
theorem witness_idle_writes : State.reset.fsm = .idle ∧ Memory.wf State.reset.mem = true ∧
    Reg.access .id = .readOnly ∧ Reg.access .ctrl = .readWrite ∧ Buffer.access .pub = .readOnly ∧
    0 % 4 = 0 ∧ 0 < Buffer.size .pub ∧ Buffer.access .key ≠ .readOnly ∧ 12 % 4 = 0 ∧ 12 < Buffer.size .key ∧
    Buffer.access .input ≠ .readOnly ∧ 508 % 4 = 0 ∧ 508 < Buffer.size .input := by decide +kernel

/-- BufferWordsUseLittleEndianLanes, the reads: a word of PUB after EC_KEYGEN's write of G's encoding, and of KEY. -/
theorem witness_word_read :
    (State.reset.fillBuf .pub (rawPublicKey basePoint)).locationRead (.buf .pub 60) = 0xF551BF37 ∧
    60 % 4 = 0 ∧ 60 < Buffer.size .pub ∧
    (State.reset.fillBuf .key (beBytes 16 1)).locationRead (.buf .key 12) = 0 := by decide +kernel

/-- WaitPollsUntilIdle: idle and busy. -/
theorem witness_wait : ({ State.reset with hostProgram := [.pollIdle] } : State).hostProgram = .pollIdle :: [] ∧
    ({ inFlight 0x30 with hostProgram := [.pollIdle] } : State).hostProgram = .pollIdle :: [] ∧
    (inFlight 0x30).fsm ≠ .idle := by decide

/-- LoadLineFillsTheBuffer: a length that is no multiple of 4, and the whole of IN. -/
theorem witness_load :
    Memory.wf State.reset.mem = true ∧ Buffer.access .nonce ≠ .readOnly ∧ [1, 2, 3, 4, 5].length ≤ Buffer.size .nonce ∧
    (zeros 512).length ≤ Buffer.size .input ∧
    ({ State.reset with hostProgram := (HostLine.load .nonce [1, 2, 3, 4, 5]).expand } : State).hostProgram =
      (HostLine.load .nonce [1, 2, 3, 4, 5]).expand ++ [] :=
  ⟨by decide, by decide, by decide, by decide +kernel, rfl⟩

/-- RunLineCompletesTheCommand. -/
theorem witness_run : State.reset.fsm = .idle ∧ State.reset.schedule = [] ∧
    ({ State.reset with hostProgram := (HostLine.run .hmac).expand } : State).hostProgram =
      (HostLine.run .hmac).expand ++ [] := ⟨rfl, rfl, rfl⟩

/-- Who moves in the statements below: each agent, by the schedule and, with nothing scheduled, by FSM (log 4). -/
theorem witness_mover : ({ inFlight 0x21 with schedule := [.platform] } : State).mover = .platform ∧
    ({ inFlight 0x21 with schedule := [.host] } : State).mover = .host ∧
    ({ State.reset with schedule := [.engine] } : State).mover = .engine ∧
    State.reset.mover = .host ∧ (inFlight 0x21).mover = .engine := by decide

/-- PendingBitsAreSticky: a reset clears DONE. -/
theorem witness_sticky :
    step { State.reset with irqStat := 1, schedule := [.platform] } = .next State.reset ∧
    ({ State.reset with irqStat := 1, schedule := [.platform] } : State).irqStat.getLsbD 0 = true ∧
    State.reset.irqStat.getLsbD 0 = false := ⟨rfl, by decide, by decide⟩

theorem windowOffset_irqStat : windowOffset (Config.mscBase + 0x01C) = some 0x01C := by simp [windowOffset]

/-- PendingBitsAreSticky: the host's write of 1 clears DONE. -/
theorem witness_sticky_write :
    ∃ t, step { State.reset with irqStat := 1, hostProgram := [writeAt 0x01C 1] } = .next t ∧
      t.irqStat.getLsbD 0 = false :=
  ⟨_, rfl, by
    have h : accessLocation 0x01C 4 = some (.reg .irqStat) := by decide
    simp [State.hostMove, State.hostAccess, State.busEffect, writeAt, windowOffset_irqStat, State.windowWrite, h,
      State.hostWrite, State.busyFlag, State.reset, State.locationWrite, State.regWrite]⟩

/-- FsmMovesOnlyByIssueAndCompletion: an issue, a completion, a reset, and a host step that leaves the command in
flight. -/
theorem witness_fsm : State.reset.fsm = .idle ∧
    (∃ t, step { State.reset with hostProgram := [writeAt 0x010 0x21] } = .next t) ∧
    (inFlight 0x00).fsm = .busy 0x00 ∧ (∃ t, step (inFlight 0x00) = .next t ∧ t.fsm = .idle) ∧
    (∃ t, step { inFlight 0x00 with schedule := [.platform] } = .next t ∧ t.fsm = .idle) ∧
    ∃ t, step { inFlight 0x00 with schedule := [.host] } = .next t ∧ t.fsm = .busy 0x00 :=
  ⟨rfl, ⟨_, rfl⟩, rfl, ⟨_, rfl, rfl⟩, ⟨_, rfl, rfl⟩, ⟨_, rfl, rfl⟩⟩

/-- HostAccessesDoNotDependOnKeyOrScalar: two machines with different keys and scalars. -/
theorem witness_secrets :
    Memory.wf (State.reset.fillBuf .key [1]).mem = true ∧ Memory.wf (State.reset.fillBuf .key [2]).mem = true ∧
    SameButSecrets { State.reset.fillBuf .key [1] with d := 1 } { State.reset.fillBuf .key [2] with d := 2 } where
  left := State.reset.fillBuf_wf _ _ State.reset_mem_wf
  right :=
    { left := State.reset.fillBuf_wf _ _ State.reset_mem_wf
      right :=
        { fields := rfl
          bytes := fun a h =>
            (State.reset.read_fillBuf_of_not_holds .key [1] a h).trans
              (State.reset.read_fillBuf_of_not_holds .key [2] a h).symm } }

end Sys2Proof.Tests
end

section
/-! What a command's completion can write, said once for all commands (R404, R409 to R412, R417), and what that
leaves of the buffers, IRQ_STAT and FSM. -/

namespace Sys2Proof.Machine

/-! ### Buffers of the updates that fill one (R409, R511 to R515) -/

/-- Equal memories hold equal buffers. -/
theorem State.buf_of_mem_eq {s t : State} (h : t.mem = s.mem) (b : Buffer) : t.buf b = s.buf b := by
  rw [State.buf, h, State.buf]

@[simp] theorem State.buf_setOut (s : State) (r : ByteString) (b : Buffer) :
    (s.setOut r).buf b = (s.fillBuf .output r).buf b := buf_of_mem_eq rfl b
@[simp] theorem State.buf_setKeyPair (s : State) (d : Nat) (b : Buffer) :
    (s.setKeyPair d).buf b = (s.fillBuf .pub (rawPublicKey (pointMul d basePoint))).buf b := buf_of_mem_eq rfl b
@[simp] theorem State.buf_dropKeyPair (s : State) (b : Buffer) : s.dropKeyPair.buf b = (s.fillBuf .pub []).buf b :=
  buf_of_mem_eq rfl b
@[simp] theorem State.buf_exportKey (s : State) (b : Buffer) :
    s.exportKey.buf b = (s.fillBuf .priv (minBE s.d.toNat)).buf b := buf_of_mem_eq rfl b
@[simp] theorem State.buf_setShared (s : State) (xS : Nat) (b : Buffer) :
    (s.setShared xS).buf b = (s.fillBuf .shared (sharedSecret xS)).buf b := buf_of_mem_eq (s.setShared_mem xS) b
@[simp] theorem State.buf_dropShared (s : State) (b : Buffer) : s.dropShared.buf b = (s.fillBuf .shared []).buf b :=
  buf_of_mem_eq rfl b
@[simp] theorem State.buf_zeroized (s : State) (b : Buffer) : s.zeroized.buf b = s.clearBuffers.buf b :=
  buf_of_mem_eq rfl b

/-! ### The two stages of a completion before RESULT, IRQ_STAT and FSM -/

/-- The registers with no part in a buffer, a key or a valid bit that a completion may write (R803, R810, R811), and
the entropy source's answers it may use up (R923). -/
inductive RegisterWrites (s : State) : State → Prop
  | mk (counter : BitVec 32) (rxCounter : BitVec 32) (rxSize : BitVec 8) (crcResult : BitVec 16)
      (entropy : List (Option Nat)) (draws : Nat) :
      RegisterWrites s { s with
        counter := counter, rxCounter := rxCounter, rxSize := rxSize, crcResult := crcResult
        entropy := entropy, draws := draws }

/-- A command's one write to buffers, keys and valid bits, with what its checks have made sure of. -/
inductive CommandWrite (i : Instr) (s : State) : State → Prop
  /-- No such write (R416, R513, R803). -/
  | nothing : CommandWrite i s s
  /-- An OUT writer's result, empty on a failure (R409, R410). -/
  | out (r : ByteString) (h : r.length ≤ 512) : CommandWrite i s (s.setOut r)
  /-- A new key pair, of a scalar in range (R511, R512). -/
  | keyPair (d : Nat) (h : validScalar d = true) : CommandWrite i s (s.setKeyPair d)
  /-- The loss of the key pair (R511, R512). -/
  | dropKeyPair : CommandWrite i s s.dropKeyPair
  /-- The scalar in PRIV (R513). -/
  | privateKey : CommandWrite i s s.exportKey
  /-- The outcome of the check of PEER (R514). -/
  | peerChecked (valid : Bool) (h : valid = true → validPub (s.buf .peer) = true) :
      CommandWrite i s { s with peerValid := valid }
  /-- A shared secret (R515). -/
  | shared (xS : Nat) : CommandWrite i s (s.setShared xS)
  /-- The loss of the shared secret (R515). -/
  | dropShared : CommandWrite i s s.dropShared
  /-- ZEROIZE's writes (R417), which no other command makes. -/
  | zeroized (h : i = .zeroize) : CommandWrite i s s.zeroized

/-- `t` is `s` after a completion of the command `i`: registers, one command write, then RESULT, IRQ_STAT and FSM
(R404). -/
inductive Completes (i : Instr) (s : State) : State → Prop
  | mk {s' u : State} (err : ErrCode) (hregs : RegisterWrites s s') (hwrite : CommandWrite i s' u) :
      Completes i s (u.finish (opcode i) err)

/-! ### Register writes -/

theorem RegisterWrites.refl (s : State) : RegisterWrites s s := .mk s.counter s.rxCounter s.rxSize s.crcResult _ _

theorem RegisterWrites.trans {s s' s'' : State} (h : RegisterWrites s s') (h' : RegisterWrites s' s'') :
    RegisterWrites s s'' := by
  cases h
  cases h'
  exact .mk ..

theorem State.afterDraw_registerWrites (s : State) : RegisterWrites s s.afterDraw :=
  .mk s.counter s.rxCounter s.rxSize s.crcResult _ _

theorem State.afterPad_registerWrites (s : State) (padsrc : Bool) : RegisterWrites s (s.afterPad padsrc) := by
  cases padsrc with
  | true => exact .refl s
  | false => exact s.afterDraw_registerWrites

theorem State.bumpCounter_registerWrites (s : State) : RegisterWrites s s.bumpCounter := by
  unfold State.bumpCounter
  split
  · exact .mk _ s.rxCounter s.rxSize s.crcResult s.entropy s.draws
  · exact .refl s

/-! ### The completion of each command -/

theorem Completes.ofWrite {i : Instr} {s u : State} (err : ErrCode) (h : CommandWrite i s u) :
    Completes i s (u.finish (opcode i) err) := .mk err (.refl s) h

theorem Completes.succeedOut (i : Instr) (s : State) (r : ByteString) (h : r.length ≤ 512) :
    Completes i s (s.succeedOut (opcode i) r) := .ofWrite .ok (.out r h)

theorem Completes.failOut (i : Instr) (s : State) (err : ErrCode) : Completes i s (s.failOut (opcode i) err) :=
  .ofWrite err (.out [] (Nat.zero_le _))

/-- Register writes before a completion are part of it. -/
theorem Completes.afterRegisters {i : Instr} {s s' t : State} (h : RegisterWrites s s') (h' : Completes i s' t) :
    Completes i s t := by
  cases h' with
  | mk err hregs hwrite => exact .mk err (h.trans hregs) hwrite

theorem validScalar_scalarAnswer (r : Nat) : validScalar (scalarAnswer r) = true := by
  have hpos : 0 < groupOrder - 1 := by decide
  have hmod := Nat.mod_lt r hpos
  refine Bool.and_eq_true_iff.2 ⟨decide_eq_true (Nat.le_add_right 1 _), decide_eq_true ?_⟩
  unfold scalarAnswer
  omega

theorem execEcKeygen_completes (s : State) :
    ∃ t, execEcKeygen s = .next t ∧ Completes .ecKeygen s t := by
  refine ⟨_, rfl, .afterRegisters s.afterDraw_registerWrites ?_⟩
  unfold State.entropyScalar
  cases s.entropyAnswer with
  | none => exact .ofWrite .entropyErr .dropKeyPair
  | some r => exact .ofWrite .ok (.keyPair _ (validScalar_scalarAnswer r))

theorem execEcImportPriv_completes (s : State) :
    ∃ t, execEcImportPriv s = .next t ∧ Completes .ecImportPriv s t := by
  refine ⟨_, rfl, ?_⟩
  split
  · exact .ofWrite .lenErr .dropKeyPair
  · split
    · next hvalid => exact .ofWrite .ok (.keyPair _ hvalid)
    · exact .ofWrite .invalidKey .dropKeyPair

theorem execEcExportPriv_completes (s : State) :
    ∃ t, execEcExportPriv s = .next t ∧ Completes .ecExportPriv s t := by
  refine ⟨_, rfl, ?_⟩
  split
  · exact .ofWrite .ok .privateKey
  · exact .ofWrite .invalidKey .nothing

theorem execEcImportPub_completes (s : State) :
    ∃ t, execEcImportPub s = .next t ∧ Completes .ecImportPub s t := by
  refine ⟨_, rfl, ?_⟩
  split
  · next hvalid => exact .ofWrite .ok (.peerChecked true fun _ => hvalid)
  · exact .ofWrite .invalidKey (.peerChecked false nofun)

theorem execEcAgree_completes (s : State) :
    ∃ t, execEcAgree s = .next t ∧ Completes .ecAgree s t := by
  refine ⟨_, rfl, ?_⟩
  split
  · cases pointMul s.d.toNat (decodePublicKey (s.buf .peer)) with
    | infinity => exact .ofWrite .keyAgreement .dropShared
    | affine xS yS => exact .ofWrite .ok (.shared xS)
  · exact .ofWrite .keyAgreement .dropShared

@[simp] theorem State.hkdfOkm_length (s : State) (saltp ikmsrc : Bool) : (s.hkdfOkm saltp ikmsrc).length = 64 :=
  hkdfExpand_length _ _

theorem execHkdf_completes (saltp ikmsrc : Bool) (s : State) :
    ∃ t, execHkdf saltp ikmsrc s = .next t ∧ Completes (.hkdf saltp ikmsrc) s t := by
  refine ⟨_, rfl, ?_⟩
  split
  · exact .failOut _ s .lenErr
  · split
    · exact .failOut _ s .invalidKey
    · exact .succeedOut _ s _ (by simp)

theorem execHmac_completes (s : State) : ∃ t, execHmac s = .next t ∧ Completes .hmac s t := by
  refine ⟨_, rfl, ?_⟩
  split
  · exact .failOut _ s .lenErr
  · exact .succeedOut _ s _ (by simp)

/-- A CCM encryption of IN fits in OUT where IN_LEN passed the check for it (R408, R716). -/
theorem State.ccmEncrypt_inOperand_fits (s : State) (nonce aad : ByteString) (h : s.inLen.toNat ≤ 508) :
    (ccmEncrypt (s.buf .key) nonce aad s.inOperand).length ≤ 512 := by
  rw [ccmEncrypt_length _ _ _ _ (s.buf_length .key), State.inOperand_length]
  omega

theorem execCcmEnc_completes (s : State) : ∃ t, execCcmEnc s = .next t ∧ Completes .ccmEnc s t := by
  refine ⟨_, rfl, ?_⟩
  split
  · exact .failOut _ s .lenErr
  · next hlen =>
    obtain ⟨-, hin⟩ : s.aadLen.toNat ≤ 64 ∧ s.inLen.toNat ≤ 508 := by simpa [State.lengthError] using hlen
    exact .succeedOut _ s _ (s.ccmEncrypt_inOperand_fits _ _ hin)

theorem execDevidEnc_completes (s : State) : ∃ t, execDevidEnc s = .next t ∧ Completes .devidEnc s t := by
  refine ⟨_, rfl, ?_⟩
  split
  · exact .failOut _ s .lenErr
  · next hlen =>
    have hin : s.inLen.toNat ≤ 508 := by simpa [State.lengthError] using hlen
    exact .succeedOut _ s _ (s.ccmEncrypt_inOperand_fits _ _ hin)

theorem execCcmDec_completes (s : State) : ∃ t, execCcmDec s = .next t ∧ Completes .ccmDec s t := by
  refine ⟨_, rfl, ?_⟩
  split
  · exact .failOut _ s .lenErr
  · cases hp : ccmDecrypt (s.buf .key) (s.buf .nonce) s.aadOperand s.inOperand with
    | none => exact .failOut _ s .authFail
    | some p =>
      have hlen := ccmDecrypt_length _ _ _ _ _ (s.buf_length .key) hp
      exact .succeedOut _ s p (by rw [State.inOperand_length] at hlen; omega)

/-- A frame is 12 bytes longer than the message with its 3-byte head (R804, R809). -/
theorem encodeFrame_length (key iv m : ByteString) (c : Nat) (pad : ByteString) (hkey : key.length = 16)
    (hpad : pad.length = 4) : (encodeFrame key iv m c pad).length = m.length - 3 + 15 := by
  simp [encodeFrame, frameSeal, frameBody, crcTrailer, ccmEncrypt_length _ _ _ _ hkey, hpad]
  omega

theorem execFrameEnc_completes (padsrc : Bool) (s : State) :
    ∃ t, execFrameEnc padsrc s = .next t ∧ Completes (.frameEnc padsrc) s t := by
  refine ⟨_, rfl, ?_⟩
  split
  · exact .failOut _ s .lenErr
  · next hlen =>
    obtain ⟨hmin, hmax⟩ : 3 ≤ s.inLen.toNat ∧ s.inLen.toNat ≤ 500 := by simpa [State.lengthError] using hlen
    split
    · exact .failOut _ s .ctrExhausted
    · refine .afterRegisters (s.afterPad_registerWrites padsrc) ?_
      cases hpad : s.framePad padsrc with
      | none => exact .failOut _ _ .entropyErr
      | some pad =>
        refine .afterRegisters (State.bumpCounter_registerWrites _) (.succeedOut _ _ _ ?_)
        rw [encodeFrame_length _ _ _ _ _ (State.buf_length _ .key) (s.framePad_length padsrc pad hpad),
          State.inOperand_length, State.afterPad_inLen]
        omega

theorem decodedFrame_length_le (f p : ByteString) (h : p.length ≤ 512) : (decodedFrame f p).length ≤ 512 := by
  simp only [decodedFrame, List.length_append, List.length_take]
  omega

theorem execFrameDec_completes (s : State) : ∃ t, execFrameDec s = .next t ∧ Completes .frameDec s t := by
  refine ⟨_, rfl, ?_⟩
  split
  · exact .failOut _ s .lenErr
  split
  · exact .failOut _ s .frameErr
  split
  · exact .failOut _ s .frameErr
  split
  · exact .failOut _ s .crcErr
  cases hp : ccmDecrypt (s.buf .key) (frameNonce s.ivBytes (s.receiveCounter s.inOperand)) []
      (slice s.inOperand 5 (s.inOperand.length - 2)) with
  | none => exact .failOut _ s .authFail
  | some p =>
    have hlen := ccmDecrypt_length _ _ _ _ _ (s.buf_length .key) hp
    refine .afterRegisters (.mk s.counter _ _ s.crcResult s.entropy s.draws)
      (.succeedOut _ _ _ (decodedFrame_length_le _ p ?_))
    rw [slice_length, State.inOperand_length] at hlen
    omega

theorem execCrc16_completes (s : State) : ∃ t, execCrc16 s = .next t ∧ Completes .crc16 s t := by
  refine ⟨_, rfl, ?_⟩
  split
  · exact .mk .lenErr (.mk s.counter s.rxCounter s.rxSize _ s.entropy s.draws) .nothing
  · exact .mk .ok (.mk s.counter s.rxCounter s.rxSize _ s.entropy s.draws) .nothing

/-- Every command's meaning is a completion: the one case split over the commands. -/
theorem exec_completes (i : Instr) (s : State) : ∃ t, exec i s = .next t ∧ Completes i s t := by
  cases i with
  | nop => exact ⟨_, rfl, .ofWrite .ok .nothing⟩
  | zeroize => exact ⟨_, rfl, .ofWrite .ok (.zeroized rfl)⟩
  | ecKeygen => exact execEcKeygen_completes s
  | ecImportPriv => exact execEcImportPriv_completes s
  | ecExportPriv => exact execEcExportPriv_completes s
  | ecImportPub => exact execEcImportPub_completes s
  | ecAgree => exact execEcAgree_completes s
  | hkdf saltp ikmsrc => exact execHkdf_completes saltp ikmsrc s
  | hmac => exact execHmac_completes s
  | ccmEnc => exact execCcmEnc_completes s
  | ccmDec => exact execCcmDec_completes s
  | devidEnc => exact execDevidEnc_completes s
  | frameEnc padsrc => exact execFrameEnc_completes padsrc s
  | frameDec => exact execFrameDec_completes s
  | crc16 => exact execCrc16_completes s

theorem completes_of_exec {i : Instr} {s t : State} (h : exec i s = .next t) : Completes i s t := by
  obtain ⟨t', ht', hc⟩ := exec_completes i s
  cases ht'.symm.trans h
  exact hc

/-! ### What a completion leaves -/

theorem Completes.fsm {i : Instr} {s t : State} (h : Completes i s t) : t.fsm = .idle := by
  cases h
  rfl

theorem CommandWrite.irqStat {i : Instr} {s t : State} (h : CommandWrite i s t) : t.irqStat = s.irqStat := by
  cases h with
  | shared xS => exact s.setShared_irqStat xS
  | nothing | out | keyPair | dropKeyPair | privateKey | peerChecked | dropShared | zeroized => rfl

/-- A completion sets pending bits and clears none (R407). -/
theorem Completes.irqStat {i : Instr} {s t : State} (h : Completes i s t) :
    ∃ err, t.irqStat = irqStatAfter s.irqStat err := by
  cases h with
  | mk err hregs hwrite =>
    refine ⟨err, ?_⟩
    rw [State.finish_irqStat, hwrite.irqStat]
    cases hregs
    rfl

/-- The buffers no command writes but ZEROIZE: the host's own (R124 to R128, R131, R133). -/
def Buffer.hostOwned : Buffer → Bool
  | .key | .nonce | .aad | .salt | .ikm | .peer | .input => true
  | .priv | .pub | .shared | .output => false

theorem Buffer.hostOwned_iff_mem (b : Buffer) :
    b.hostOwned = true ↔ b ∈ [Buffer.key, .nonce, .aad, .salt, .ikm, .peer, .input] := by
  cases b <;> decide

theorem CommandWrite.buf_hostOwned {i : Instr} {s t : State} (h : CommandWrite i s t) (hi : i ≠ .zeroize) {b : Buffer}
    (hb : b.hostOwned = true) : t.buf b = s.buf b := by
  have hfill (b' : Buffer) (r : ByteString) (hb' : b'.hostOwned = false) : (s.fillBuf b' r).buf b = s.buf b :=
    s.buf_fillBuf_of_ne r (by rintro rfl; simp [hb] at hb')
  cases h with
  | nothing => rfl
  | out r _ => exact (s.buf_setOut r b).trans (hfill .output r rfl)
  | keyPair d _ => exact (s.buf_setKeyPair d b).trans (hfill .pub _ rfl)
  | dropKeyPair => exact (s.buf_dropKeyPair b).trans (hfill .pub [] rfl)
  | privateKey => exact (s.buf_exportKey b).trans (hfill .priv _ rfl)
  | peerChecked _ _ => exact State.buf_of_mem_eq rfl b
  | shared xS => exact (s.buf_setShared xS b).trans (hfill .shared _ rfl)
  | dropShared => exact (s.buf_dropShared b).trans (hfill .shared [] rfl)
  | zeroized h => exact absurd h hi

theorem Completes.buf_hostOwned {i : Instr} {s t : State} (h : Completes i s t) (hi : i ≠ .zeroize) {b : Buffer}
    (hb : b.hostOwned = true) : t.buf b = s.buf b := by
  cases h with
  | mk err hregs hwrite =>
    rw [State.buf_finish, hwrite.buf_hostOwned hi hb]
    cases hregs
    exact State.buf_of_mem_eq rfl b

end Sys2Proof.Machine

namespace Sys2Proof.Proofs

open Sys2Proof.Machine

/-- Settles O12: every command's completion is one of the writes of `CommandWrite`, of which only ZEROIZE's touches a
buffer of the host's. -/
theorem commandsNeverWriteTheHostsBuffers : Obligations.CommandsNeverWriteTheHostsBuffers := by
  intro i s t b hi hexec hb
  exact (completes_of_exec hexec).buf_hostOwned hi ((Buffer.hostOwned_iff_mem b).2 hb)

end Sys2Proof.Proofs
end

section
/-! What one step can do, said once for the three agents that move (R401, R402, R1001), and what a host access can
do to the machine (R205, R215, R216). -/

namespace Sys2Proof.Machine

/-! ### Who moves, and with what -/

/-- The state with the entry of the schedule used up that a step takes. -/
def State.dispatched (s : State) : State := { s with schedule := s.schedule.tail }

theorem State.dispatched_of_nil {s : State} (h : s.schedule = []) : s.dispatched = s := by
  cases s
  cases h
  rfl

/-- A step is a move of the agent `mover` names. -/
theorem step_eq_mover (s : State) : step s =
    match s.mover with
    | .engine => engineMove s.dispatched
    | .host => .next s.dispatched.hostMove
    | .platform => .next s.dispatched.platformReset := by
  unfold step State.mover
  cases hs : s.schedule with
  | nil => cases s.busyFlag <;> simp [State.dispatched_of_nil hs]
  | cons agent rest => cases agent <;> simp [State.dispatched, hs]

theorem engineMove_of_idle {s : State} (h : s.fsm = .idle) : engineMove s = .next s := by
  simp [engineMove, State.latchedWord, h]

/-- The engine's step while BUSY: a command's completion, or that of an illegal word (R404, R412). -/
theorem engineMove_of_busy {s t : State} {w : Word} (h : s.fsm = .busy w) (ht : engineMove s = .next t) :
    (∃ i, Completes i s t) ∨ t = s.completeIllegal w := by
  simp only [engineMove, State.latchedWord, h] at ht
  split at ht
  · exact .inl ⟨_, completes_of_exec ht⟩
  · exact .inr (Host.Outcome.next.inj ht).symm

/-- The engine's step in general. -/
theorem engineMove_cases {s t : State} (ht : engineMove s = .next t) :
    (s.fsm = .idle ∧ t = s) ∨ (∃ i, Completes i s t) ∨ ∃ w, t = s.completeIllegal w := by
  cases hfsm : s.fsm with
  | idle =>
    rw [engineMove_of_idle hfsm] at ht
    exact .inl ⟨rfl, (Host.Outcome.next.inj ht).symm⟩
  | busy w => exact .inr ((engineMove_of_busy hfsm ht).imp_right fun h => ⟨w, h⟩)

theorem engineMove_fsm {s t : State} (ht : engineMove s = .next t) : t.fsm = .idle := by
  rcases engineMove_cases ht with ⟨hidle, rfl⟩ | ⟨i, hc⟩ | ⟨w, rfl⟩
  · exact hidle
  · exact hc.fsm
  · rfl

/-- The engine clears no pending bit (R407). -/
theorem engineMove_irqStat {s t : State} (ht : engineMove s = .next t) (k : Nat)
    (hk : s.irqStat.getLsbD k = true) : t.irqStat.getLsbD k = true := by
  rcases engineMove_cases ht with ⟨-, rfl⟩ | ⟨i, hc⟩ | ⟨w, rfl⟩
  · exact hk
  · obtain ⟨err, herr⟩ := hc.irqStat
    simp [herr, irqStatAfter, hk]
  · simp [State.completeIllegal, irqStatAfter, hk]

/-! ### The host's accesses -/

theorem State.hostWrite_of_idle {s : State} (h : s.fsm = .idle) (v : Word) (l : Location) :
    s.hostWrite v l = s.locationWrite v l := by
  simp [State.hostWrite, State.busyFlag, h]

/-- A host write is performed, or dropped with OVR set (R216). -/
theorem State.hostWrite_cases (s : State) (v : Word) (l : Location) :
    s.hostWrite v l = { s with irqStat := s.irqStat ||| ovrBit } ∨ s.hostWrite v l = s.locationWrite v l := by
  unfold State.hostWrite
  split
  · exact .inl rfl
  · exact .inr rfl

/-- A write of a buffer's word changes the memory and PEER_VALID (R131), a read-only buffer's neither. -/
theorem State.bufWordWrite_eq (s : State) (v : Word) (b : Buffer) (index : Nat) :
    s.bufWordWrite v b index =
      if b.access = .readOnly then s
      else { s with
        mem := Memory.writeBytes s.mem (b.base + index) (leBytes 4 v.toNat)
        peerValid := if b = .peer then false else s.peerValid } := by
  unfold State.bufWordWrite
  cases b.access <;> rfl

theorem State.bufWordWrite_irqStat (s : State) (v : Word) (b : Buffer) (index : Nat) :
    (s.bufWordWrite v b index).irqStat = s.irqStat := by
  rw [bufWordWrite_eq]
  split <;> rfl

theorem State.bufWordWrite_fsm (s : State) (v : Word) (b : Buffer) (index : Nat) :
    (s.bufWordWrite v b index).fsm = s.fsm := by
  rw [bufWordWrite_eq]
  split <;> rfl

theorem State.regWrite_irqStat (s : State) (v : Word) (r : Reg) (h : r ≠ .irqStat) :
    (s.regWrite v r).irqStat = s.irqStat := by
  cases r with
  | irqStat => exact absurd rfl h
  | _ => rfl

theorem State.regWrite_fsm (s : State) (v : Word) (r : Reg) (h : r ≠ .cmd) : (s.regWrite v r).fsm = s.fsm := by
  cases r with
  | cmd => exact absurd rfl h
  | _ => rfl

/-- A host write clears a pending bit only by writing 1 to it in IRQ_STAT (R109). -/
theorem State.hostWrite_clears {s : State} {v : Word} {l : Location} {k : Nat} (hset : s.irqStat.getLsbD k = true)
    (hclear : (s.hostWrite v l).irqStat.getLsbD k = false) : l = .reg .irqStat ∧ v.getLsbD k = true := by
  rcases s.hostWrite_cases v l with h | h
  · simp [h, hset] at hclear
  rw [h] at hclear
  cases l with
  | buf b index => simp [State.locationWrite, State.bufWordWrite_irqStat, hset] at hclear
  | reg r =>
    by_cases hr : r = .irqStat
    · subst hr
      simp only [State.locationWrite, State.regWrite, BitVec.getLsbD_and, hset, Bool.true_and, BitVec.getLsbD_not,
        BitVec.getLsbD_setWidth] at hclear
      refine ⟨rfl, ?_⟩
      have hk := BitVec.lt_of_getLsbD hset
      simpa [hk] using hclear
    · simp [State.locationWrite, State.regWrite_irqStat s v r hr, hset] at hclear

/-- A host write leaves FSM alone, but for the write to CMD that issues a word while IDLE (R403). -/
theorem State.hostWrite_fsm (s : State) (v : Word) (l : Location) :
    (s.hostWrite v l).fsm = s.fsm ∨ (s.fsm = .idle ∧ l = .reg .cmd ∧ (s.hostWrite v l).fsm = .busy v) := by
  cases l with
  | buf b index =>
    rcases s.hostWrite_cases v (.buf b index) with h | h <;> rw [h]
    · exact .inl rfl
    · exact .inl (s.bufWordWrite_fsm v b index)
  | reg r =>
    by_cases hr : r = .cmd
    · subst hr
      cases hfsm : s.fsm with
      | idle => exact .inr ⟨rfl, rfl, by rw [s.hostWrite_of_idle hfsm]; rfl⟩
      | busy w => exact .inl (by simp [State.hostWrite, State.busyFlag, Location.writableWhileBusy, hfsm])
    · rcases s.hostWrite_cases v (.reg r) with h | h <;> rw [h]
      · exact .inl rfl
      · exact .inl (s.regWrite_fsm v r hr)

/-- An access does nothing to the machine, or is a write that reaches a location (R205, R206, R215). -/
theorem State.busEffect_cases (s : State) (a : BusAccess) :
    s.busEffect a = s ∨ ∃ addr v off l, a = .write addr 4 v ∧ windowOffset addr = some off ∧
      accessLocation off 4 = some l ∧ s.busEffect a = s.hostWrite v l := by
  cases a with
  | read addr bytes => exact .inl rfl
  | write addr bytes v =>
    cases hoff : windowOffset addr with
    | none => exact .inl (by simp [State.busEffect, hoff])
    | some off =>
      have heffect : s.busEffect (.write addr bytes v) = s.windowWrite off bytes v := by simp [State.busEffect, hoff]
      rw [heffect, State.windowWrite]
      cases hl : accessLocation off bytes with
      | none => exact .inl rfl
      | some l =>
        obtain ⟨rfl, -, -⟩ := (accessLocation_eq_some_iff off bytes l).1 hl
        exact .inr ⟨addr, v, off, l, rfl, hoff, hl, rfl⟩

/-- The machine as a host step finds it, but for the operation taken from the host's program. -/
def State.withProgram (s : State) (program : List HostOp) : State := { s with hostProgram := program }

/-- The host's step: its program and trace move on, and the machine stays or takes one write to a location. -/
theorem State.hostMove_cases (s : State) :
    ∃ program log u, s.hostMove = { u with busLog := log } ∧
      (u = s.withProgram program ∨
        ∃ addr v off l, s.hostProgram = .access (.write addr 4 v) :: program ∧ windowOffset addr = some off ∧
          accessLocation off 4 = some l ∧ u = (s.withProgram program).hostWrite v l) := by
  unfold State.hostMove
  split
  · exact ⟨s.hostProgram, s.busLog, s, rfl, .inl rfl⟩
  · next a rest hprog =>
    refine ⟨rest, _, (s.withProgram rest).busEffect a, rfl, ?_⟩
    rcases (s.withProgram rest).busEffect_cases a with h | ⟨addr, v, off, l, rfl, hoff, hl, h⟩
    · exact .inl h
    · exact .inr ⟨addr, v, off, l, hprog, hoff, hl, h⟩
  · exact ⟨_, _, _, rfl, .inl rfl⟩

/-- A register is reached at its own offset (R101). -/
theorem offset_of_accessLocation_reg {off : Nat} {r : Reg} (h : accessLocation off 4 = some (.reg r)) :
    off = r.offset :=
  (locate_reg off r ((accessLocation_eq_some_iff off 4 _).1 h).2.2).symm

/-- The host clears a pending bit only by a write of 1 to it (R109). -/
theorem State.hostMove_clears {s : State} {k : Nat} (hset : s.irqStat.getLsbD k = true)
    (hclear : s.hostMove.irqStat.getLsbD k = false) :
    ∃ addr v rest, s.hostProgram = .access (.write addr 4 v) :: rest ∧
      windowOffset addr = some Reg.irqStat.offset ∧ v.getLsbD k = true := by
  obtain ⟨program, log, u, hmove, rfl | ⟨addr, v, off, l, hprog, hoff, hl, rfl⟩⟩ := s.hostMove_cases
  · rw [hmove] at hclear
    exact absurd (hset.symm.trans hclear) (by decide)
  · rw [hmove] at hclear
    obtain ⟨rfl, hv⟩ := State.hostWrite_clears (s := s.withProgram program) hset hclear
    obtain rfl := offset_of_accessLocation_reg hl
    exact ⟨addr, v, program, hprog, hoff, hv⟩

/-- The host leaves FSM alone, but for issuing a word while IDLE (R403). -/
theorem State.hostMove_fsm (s : State) :
    s.hostMove.fsm = s.fsm ∨ (s.fsm = .idle ∧
      ∃ addr v rest, s.hostProgram = .access (.write addr 4 v) :: rest ∧
        windowOffset addr = some Reg.cmd.offset ∧ s.hostMove.fsm = .busy v) := by
  obtain ⟨program, log, u, hmove, rfl | ⟨addr, v, off, l, hprog, hoff, hl, rfl⟩⟩ := s.hostMove_cases
  · exact .inl (by rw [hmove]; rfl)
  · rw [hmove]
    refine ((s.withProgram program).hostWrite_fsm v l).imp_right ?_
    rintro ⟨hidle, rfl, hbusy⟩
    obtain rfl := offset_of_accessLocation_reg hl
    exact ⟨hidle, addr, v, program, hprog, hoff, hbusy⟩

/-- A step's result, by the agent that moved. -/
theorem step_cases {s t : State} (h : step s = .next t) :
    (s.mover = .engine ∧ engineMove s.dispatched = .next t) ∨ (s.mover = .host ∧ t = s.dispatched.hostMove) ∨
      (s.mover = .platform ∧ t = s.dispatched.platformReset) := by
  rw [step_eq_mover] at h
  cases hm : s.mover with
  | engine => exact .inl ⟨rfl, by simpa [hm] using h⟩
  | host => exact .inr (.inl ⟨rfl, by simpa [hm, eq_comm] using h⟩)
  | platform => exact .inr (.inr ⟨rfl, by simpa [hm, eq_comm] using h⟩)

end Sys2Proof.Machine

namespace Sys2Proof.Proofs

open Sys2Proof.Machine

/-- Settles O58: the engine only sets bits, and the host's only way to clear one is the write of 1 to it. -/
theorem pendingBitsAreSticky : Obligations.PendingBitsAreSticky := by
  intro s t k hstep hset hclear
  rcases step_cases hstep with ⟨-, hengine⟩ | ⟨hmover, rfl⟩ | ⟨hmover, -⟩
  · exact absurd (engineMove_irqStat hengine k hset) (by rw [hclear]; decide)
  · exact .inr ⟨hmover, s.dispatched.hostMove_clears hset hclear⟩
  · exact .inl hmover

/-- Settles O59, by the agent that moves. -/
theorem fsmMovesOnlyByIssueAndCompletion : Obligations.FsmMovesOnlyByIssueAndCompletion := by
  intro s t hstep
  rcases step_cases hstep with ⟨hmover, hengine⟩ | ⟨hmover, rfl⟩ | ⟨hmover, rfl⟩
  · have hidle := engineMove_fsm hengine
    exact ⟨fun _ => .inl hidle, fun w _ => by simpa [hmover] using hidle⟩
  · rcases s.dispatched.hostMove_fsm with hsame | ⟨hidle, hissue⟩
    · exact ⟨fun hidle => .inl (hsame.trans hidle), fun w hbusy => by simpa [hmover] using hsame.trans hbusy⟩
    · exact ⟨fun _ => .inr ⟨hmover, hissue⟩, fun w hbusy => absurd (hidle.symm.trans hbusy) nofun⟩
  · exact ⟨fun _ => .inl rfl, fun w _ => by simp [hmover, State.reset]⟩

end Sys2Proof.Proofs
end

section
/-! The invariant, clause by clause: each clause is about one buffer and its valid bit or length, so that an update
has to answer only for the clause of the buffer it writes (R101, R130, R134 to R138, R911). -/

namespace Sys2Proof.Machine

/-! ### The clauses -/

/-- The memory is canonical and lists bytes of buffers only (R101). -/
def Memory.Proper (m : Memory) : Prop := Memory.wf m = true ∧ ∀ c ∈ m, ∃ b : Buffer, b.holds c.1 = true

/-- D_VALID tells whether D is a scalar in range with its public key in PUB; else both are zero (R130, R135, R136). -/
def KeyPairOk (valid : Bool) (d : BitVec 256) (pub : ByteString) : Prop :=
  (valid = true → validScalar d.toNat = true ∧ pub = rawPublicKey (pointMul d.toNat basePoint)) ∧
    (valid = false → d = 0 ∧ pub = zeros 64)

/-- PEER_VALID is set only of a valid PEER (R137). -/
def PeerOk (valid : Bool) (peer : ByteString) : Prop := valid = true → validPub peer = true

/-- SHARED is zero without SHARED_VALID (R138). -/
def SharedOk (valid : Bool) (shared : ByteString) : Prop := valid = false → shared = zeros 32

/-- OUT_LEN is within OUT, and OUT is zero past it (R112, R134). -/
def OutOk (outLen : BitVec 16) (out : ByteString) : Prop :=
  outLen.toNat ≤ 512 ∧ ∀ i, outLen.toNat ≤ i → byteAt out i = 0

theorem State.inv_iff (s : State) : s.Inv ↔
    Memory.Proper s.mem ∧ KeyPairOk s.dValid s.d (s.buf .pub) ∧ PeerOk s.peerValid (s.buf .peer) ∧
      SharedOk s.sharedValid (s.buf .shared) ∧ OutOk s.outLen (s.buf .output) ∧ s.errCode.toNat ≤ 9 := by
  constructor
  · intro h
    exact ⟨⟨h.canonical, h.inBuffers⟩, ⟨fun hvalid => ⟨h.scalarRange hvalid, h.publicKey hvalid⟩, h.noKey⟩,
      h.peerChecked, h.noShared, ⟨h.outLenFits, h.outTail⟩, h.codes⟩
  · rintro ⟨⟨hwf, hin⟩, ⟨hkey, hnoKey⟩, hpeer, hshared, ⟨hfits, htail⟩, hcode⟩
    exact
      { canonical := hwf, inBuffers := hin
        scalarRange := fun hvalid => (hkey hvalid).1, publicKey := fun hvalid => (hkey hvalid).2, noKey := hnoKey
        peerChecked := hpeer, noShared := hshared, outLenFits := hfits, outTail := htail, codes := hcode }

/-- The invariant speaks of seven fields only. -/
theorem State.Inv.of_fields_eq {s t : State} (h : s.Inv) (hmem : t.mem = s.mem) (hd : t.d = s.d)
    (hdValid : t.dValid = s.dValid) (hpeer : t.peerValid = s.peerValid) (hshared : t.sharedValid = s.sharedValid)
    (hout : t.outLen = s.outLen) (hresult : t.result = s.result) : t.Inv := by
  rw [State.inv_iff] at h ⊢
  simpa only [State.buf_of_mem_eq hmem, State.errCode, hmem, hd, hdValid, hpeer, hshared, hout, hresult] using h

/-! ### Reset -/

theorem Memory.readBytes_nil (a n : Nat) : Memory.readBytes [] a n = zeros n := by
  induction n generalizing a with
  | zero => rfl
  | succ n ih => rw [Memory.readBytes, ih, Memory.read_nil, zeros_succ]

/-- Every buffer is zero at reset (R1002). -/
@[simp] theorem State.buf_reset (b : Buffer) : State.reset.buf b = zeros b.size := Memory.readBytes_nil _ _

theorem State.inv_reset : State.reset.Inv := by
  refine State.reset.inv_iff.2 ⟨⟨State.reset_mem_wf, nofun⟩, ⟨nofun, fun _ => ⟨rfl, State.buf_reset .pub⟩⟩, nofun,
    fun _ => State.buf_reset .shared, ⟨by decide, fun i _ => ?_⟩, by decide⟩
  rw [State.buf_reset, byteAt_zeros]

/-! ### A completion's writes -/

theorem Memory.Proper.fillBuf {s : State} (h : Memory.Proper s.mem) (b : Buffer) (r : ByteString) :
    Memory.Proper (s.fillBuf b r).mem := ⟨s.fillBuf_wf b r h.1, s.fillBuf_inBuffers b r h.2⟩

theorem Memory.Proper.clearBuffers {s : State} (h : Memory.Proper s.mem) : Memory.Proper s.clearBuffers.mem :=
  ⟨Memory.wf_foldl_clear _ _ h.1, fun c hc => h.2 c (Memory.mem_of_mem_foldl_clear _ _ c hc)⟩

/-- A buffer filled with the empty string is zero. -/
theorem State.buf_fillBuf_nil (s : State) (b : Buffer) : (s.fillBuf b []).buf b = zeros b.size := by simp

/-- A result of at most 512 bytes is followed by zeros in OUT, from OUT_LEN on (R134, R409). -/
theorem State.setOut_outOk (s : State) (r : ByteString) (h : r.length ≤ 512) :
    OutOk (BitVec.ofNat 16 r.length) ((s.fillBuf .output r).buf .output) := by
  have hlen : (BitVec.ofNat 16 r.length).toNat = r.length := by
    rw [BitVec.toNat_ofNat]
    exact Nat.mod_eq_of_lt (by omega)
  rw [OutOk, hlen, (s.fillBuf_filled .output r h).bytes]
  exact ⟨h, fun i hi => by rw [byteAt_append_right _ _ _ hi, byteAt_zeros]⟩

theorem State.Inv.setOut {s : State} (hs : s.Inv) (r : ByteString) (h : r.length ≤ 512) : (s.setOut r).Inv := by
  obtain ⟨hmem, hkey, hpeer, hshared, -, hcode⟩ := s.inv_iff.1 hs
  refine (s.setOut r).inv_iff.2 ⟨hmem.fillBuf .output r, ?_, ?_, ?_, ?_, hcode⟩
  · simpa [State.buf_fillBuf_of_ne] using hkey
  · simpa [State.buf_fillBuf_of_ne] using hpeer
  · simpa [State.buf_fillBuf_of_ne] using hshared
  · exact s.setOut_outOk r h

/-- A valid scalar fits D, so that D holds it. -/
theorem toNat_ofNat_of_validScalar {d : Nat} (h : validScalar d = true) : (BitVec.ofNat 256 d).toNat = d := by
  have horder : groupOrder < 2 ^ 256 := by decide
  have hd : d < groupOrder := of_decide_eq_true (Bool.and_eq_true_iff.1 h).2
  rw [BitVec.toNat_ofNat, Nat.mod_eq_of_lt (hd.trans horder)]

theorem State.Inv.setKeyPair {s : State} (hs : s.Inv) {d : Nat} (h : validScalar d = true) : (s.setKeyPair d).Inv := by
  obtain ⟨hmem, -, hpeer, hshared, hout, hcode⟩ := s.inv_iff.1 hs
  refine (s.setKeyPair d).inv_iff.2 ⟨hmem.fillBuf .pub _, ?_, ?_, ?_, ?_, hcode⟩
  · refine ⟨fun _ => ?_, nofun⟩
    rw [State.setKeyPair_d, toNat_ofNat_of_validScalar h, State.buf_setKeyPair,
      (s.fillBuf_filled .pub _ (rawPublicKey_length _).le).bytes, rawPublicKey_length]
    exact ⟨h, List.append_nil _⟩
  · simpa [State.buf_fillBuf_of_ne] using hpeer
  · simpa [State.buf_fillBuf_of_ne] using hshared
  · simpa [State.buf_fillBuf_of_ne] using hout

theorem State.Inv.dropKeyPair {s : State} (hs : s.Inv) : s.dropKeyPair.Inv := by
  obtain ⟨hmem, -, hpeer, hshared, hout, hcode⟩ := s.inv_iff.1 hs
  refine s.dropKeyPair.inv_iff.2 ⟨hmem.fillBuf .pub [], ?_, ?_, ?_, ?_, hcode⟩
  · exact ⟨nofun, fun _ => ⟨rfl, (s.buf_dropKeyPair .pub).trans (s.buf_fillBuf_nil .pub)⟩⟩
  · simpa [State.buf_fillBuf_of_ne] using hpeer
  · simpa [State.buf_fillBuf_of_ne] using hshared
  · simpa [State.buf_fillBuf_of_ne] using hout

theorem State.Inv.exportKey {s : State} (hs : s.Inv) : s.exportKey.Inv := by
  obtain ⟨hmem, hkey, hpeer, hshared, hout, hcode⟩ := s.inv_iff.1 hs
  refine s.exportKey.inv_iff.2 ⟨hmem.fillBuf .priv _, ?_, ?_, ?_, ?_, hcode⟩
  · simpa [State.buf_fillBuf_of_ne] using hkey
  · simpa [State.buf_fillBuf_of_ne] using hpeer
  · simpa [State.buf_fillBuf_of_ne] using hshared
  · simpa [State.buf_fillBuf_of_ne] using hout

theorem State.Inv.withPeerValid {s : State} (hs : s.Inv) (valid : Bool)
    (h : valid = true → validPub (s.buf .peer) = true) : State.Inv { s with peerValid := valid } := by
  obtain ⟨hmem, hkey, -, hshared, hout, hcode⟩ := s.inv_iff.1 hs
  have hbuf := State.buf_of_mem_eq (s := s) (t := { s with peerValid := valid }) rfl
  refine (State.inv_iff _).2 ⟨hmem, ?_, ?_, ?_, ?_, hcode⟩
  · rwa [hbuf]
  · rwa [hbuf]
  · rwa [hbuf]
  · rwa [hbuf]

theorem State.Inv.setShared {s : State} (hs : s.Inv) (xS : Nat) : (s.setShared xS).Inv := by
  obtain ⟨hmem, hkey, hpeer, -, hout, hcode⟩ := s.inv_iff.1 hs
  refine (s.setShared xS).inv_iff.2 ⟨?_, ?_, ?_, ?_, ?_, ?_⟩
  · rw [State.setShared_mem]
    exact hmem.fillBuf .shared _
  · simpa [State.buf_fillBuf_of_ne] using hkey
  · simpa [State.buf_fillBuf_of_ne] using hpeer
  · simp [SharedOk]
  · simpa [State.buf_fillBuf_of_ne] using hout
  · simpa [State.errCode] using hcode

theorem State.Inv.dropShared {s : State} (hs : s.Inv) : s.dropShared.Inv := by
  obtain ⟨hmem, hkey, hpeer, -, hout, hcode⟩ := s.inv_iff.1 hs
  refine s.dropShared.inv_iff.2 ⟨hmem.fillBuf .shared [], ?_, ?_, ?_, ?_, hcode⟩
  · simpa [State.buf_fillBuf_of_ne] using hkey
  · simpa [State.buf_fillBuf_of_ne] using hpeer
  · exact fun _ => (s.buf_dropShared .shared).trans (s.buf_fillBuf_nil .shared)
  · simpa [State.buf_fillBuf_of_ne] using hout

/-- ZEROIZE leaves every buffer zero (R417). -/
theorem State.buf_clearBuffers (s : State) (b : Buffer) : s.clearBuffers.buf b = zeros b.size := by
  rw [← State.buf_reset]
  refine State.buf_congr _ _ b fun a ha => ?_
  rw [State.read_clearBuffers, if_pos ((Buffer.any_holds_iff a).2 ⟨b, ha⟩)]
  rfl

theorem State.Inv.zeroized {s : State} (hs : s.Inv) : s.zeroized.Inv := by
  obtain ⟨hmem, -, -, -, -, hcode⟩ := s.inv_iff.1 hs
  have hbuf (b : Buffer) : s.zeroized.buf b = zeros b.size := (s.buf_zeroized b).trans (s.buf_clearBuffers b)
  refine s.zeroized.inv_iff.2 ⟨hmem.clearBuffers, ⟨nofun, fun _ => ⟨rfl, hbuf .pub⟩⟩, nofun, fun _ => hbuf .shared,
    ⟨Nat.zero_le _, fun i _ => ?_⟩, hcode⟩
  rw [hbuf, byteAt_zeros]

theorem RegisterWrites.inv {s t : State} (h : RegisterWrites s t) (hs : s.Inv) : t.Inv := by
  cases h
  exact hs.of_fields_eq rfl rfl rfl rfl rfl rfl rfl

/-- Each command's write keeps the invariant: the checks before it are what the clause of its buffer needs. -/
theorem CommandWrite.inv {i : Instr} {s t : State} (h : CommandWrite i s t) (hs : s.Inv) : t.Inv := by
  cases h with
  | nothing => exact hs
  | out r hr => exact hs.setOut r hr
  | keyPair d hd => exact hs.setKeyPair hd
  | dropKeyPair => exact hs.dropKeyPair
  | privateKey => exact hs.exportKey
  | peerChecked valid hvalid => exact hs.withPeerValid valid hvalid
  | shared xS => exact hs.setShared xS
  | dropShared => exact hs.dropShared
  | zeroized _ => exact hs.zeroized

/-- No code above 9 is reported (R911). -/
theorem ErrCode.code_le (err : ErrCode) : err.code.toNat ≤ 9 := by cases err <;> decide

theorem State.errCode_finish (s : State) (op : BitVec 8) (err : ErrCode) : (s.finish op err).errCode = err.code :=
  BitVec.extractLsb'_append_eq_right

theorem State.Inv.finish {s : State} (hs : s.Inv) (op : BitVec 8) (err : ErrCode) : (s.finish op err).Inv := by
  obtain ⟨hmem, hkey, hpeer, hshared, hout, -⟩ := s.inv_iff.1 hs
  refine (s.finish op err).inv_iff.2 ⟨hmem, ?_, ?_, ?_, ?_, by rw [State.errCode_finish]; exact err.code_le⟩
  · rwa [State.buf_finish]
  · rwa [State.buf_finish]
  · rwa [State.buf_finish]
  · rwa [State.buf_finish]

theorem Completes.inv {i : Instr} {s t : State} (h : Completes i s t) (hs : s.Inv) : t.Inv := by
  cases h with
  | mk err hregs hwrite => exact (hwrite.inv (hregs.inv hs)).finish _ err

theorem engineMove_inv {s t : State} (h : engineMove s = .next t) (hs : s.Inv) : t.Inv := by
  rcases engineMove_cases h with ⟨-, rfl⟩ | ⟨i, hc⟩ | ⟨w, rfl⟩
  · exact hs
  · exact hc.inv hs
  · exact hs.finish _ _

/-! ### The host's writes -/

/-- No host write changes the fields of the invariant through a register (R101: OUT_LEN and RESULT are read-only). -/
theorem State.Inv.regWrite {s : State} (hs : s.Inv) (v : Word) (r : Reg) : (s.regWrite v r).Inv := by
  cases r <;> exact hs.of_fields_eq rfl rfl rfl rfl rfl rfl rfl

/-- A mapped word lies in its buffer with all four bytes (R101, R204). -/
theorem word_within_buffer {off index : Nat} {b : Buffer} (h : accessLocation off 4 = some (.buf b index)) :
    index + 4 ≤ b.size := by
  obtain ⟨-, haligned, hloc⟩ := (accessLocation_eq_some_iff off 4 _).1 h
  obtain ⟨hoff, hindex⟩ := locate_buf off b index hloc
  obtain ⟨hbase, hsize⟩ := b.word_aligned
  omega

/-- A word written within a buffer leaves the bytes of the others alone. -/
theorem State.buf_writeBytes_of_ne (s : State) {b b' : Buffer} {index : Nat} {bytes : ByteString} (valid : Bool)
    (h : index + bytes.length ≤ b.size) (hne : b' ≠ b) :
    State.buf { s with mem := Memory.writeBytes s.mem (b.base + index) bytes, peerValid := valid } b' = s.buf b' := by
  refine State.buf_congr _ _ b' fun a ha => Memory.read_writeBytes_of_outside _ _ _ _ ?_
  have hout := (Buffer.not_holds_iff b a).1 (Buffer.not_holds_of_ne hne a ha)
  omega

theorem Memory.Proper.writeBytes {m : Memory} (hm : Memory.Proper m) {b : Buffer} {index : Nat} {bytes : ByteString}
    (h : index + bytes.length ≤ b.size) : Memory.Proper (Memory.writeBytes m (b.base + index) bytes) := by
  refine ⟨Memory.wf_writeBytes _ _ _ hm.1, fun c hc => ?_⟩
  rcases Memory.mem_writeBytes _ _ _ c hc with hc | ⟨hlo, hhi⟩
  · exact hm.2 c hc
  · exact ⟨b, (Buffer.holds_iff b c.1).2 ⟨by omega, by omega⟩⟩

/-- A word's write meets no clause but PEER's, whose valid bit it clears: PUB, SHARED and OUT are read-only (R101,
R131). -/
theorem State.Inv.bufWordWrite {s : State} (hs : s.Inv) (v : Word) {b : Buffer} {index : Nat}
    (h : index + 4 ≤ b.size) : (s.bufWordWrite v b index).Inv := by
  rw [State.bufWordWrite_eq]
  split
  · exact hs
  next hwritable =>
  obtain ⟨hmem, hkey, hpeer, hshared, hout, hcode⟩ := s.inv_iff.1 hs
  have hfits : index + (leBytes 4 v.toNat).length ≤ b.size := by simpa using h
  have hbuf (b' : Buffer) (hne : b' ≠ b) := s.buf_writeBytes_of_ne (if b = .peer then false else s.peerValid) hfits hne
  refine (State.inv_iff _).2 ⟨hmem.writeBytes hfits, ?_, ?_, ?_, ?_, hcode⟩
  · rwa [hbuf .pub (by rintro rfl; exact hwritable rfl)]
  · by_cases hb : b = .peer
    · simp [PeerOk, hb]
    · rw [hbuf .peer (Ne.symm hb)]
      simpa [hb] using hpeer
  · rwa [hbuf .shared (by rintro rfl; exact hwritable rfl)]
  · rwa [hbuf .output (by rintro rfl; exact hwritable rfl)]

theorem State.Inv.hostWrite {s : State} (hs : s.Inv) (v : Word) {off : Nat} {l : Location}
    (h : accessLocation off 4 = some l) : (s.hostWrite v l).Inv := by
  rcases s.hostWrite_cases v l with hw | hw <;> rw [hw]
  · exact hs.of_fields_eq rfl rfl rfl rfl rfl rfl rfl
  · cases l with
    | reg r => exact hs.regWrite v r
    | buf b index => exact hs.bufWordWrite v (word_within_buffer h)

theorem State.Inv.hostMove {s : State} (hs : s.Inv) : s.hostMove.Inv := by
  obtain ⟨program, log, u, hmove, hu⟩ := s.hostMove_cases
  have hprogram : (s.withProgram program).Inv := hs.of_fields_eq rfl rfl rfl rfl rfl rfl rfl
  have huinv : u.Inv := by
    rcases hu with rfl | ⟨addr, v, off, l, -, -, hl, rfl⟩
    · exact hprogram
    · exact hprogram.hostWrite v hl
  rw [hmove]
  exact huinv.of_fields_eq rfl rfl rfl rfl rfl rfl rfl

theorem State.inv_platformReset (s : State) : s.platformReset.Inv :=
  State.inv_reset.of_fields_eq rfl rfl rfl rfl rfl rfl rfl

end Sys2Proof.Machine

namespace Sys2Proof.Proofs

open Sys2Proof.Machine

/-- Settles O43. -/
theorem invariantHoldsAtReset : Obligations.InvariantHoldsAtReset := State.inv_reset

/-- Settles O44: a completion, a host write and a reset each keep the invariant, and a step is one of them. -/
theorem everyStepKeepsTheInvariant : Obligations.EveryStepKeepsTheInvariant := by
  intro s t hs hstep
  have hdispatched : s.dispatched.Inv := hs.of_fields_eq rfl rfl rfl rfl rfl rfl rfl
  rcases step_cases hstep with ⟨-, hengine⟩ | ⟨-, rfl⟩ | ⟨-, rfl⟩
  · exact engineMove_inv hengine hdispatched
  · exact hdispatched.hostMove
  · exact s.dispatched.inv_platformReset

end Sys2Proof.Proofs
end

section
/-! The map of the window and the host's reads and writes of registers and buffer words (R101, R201 to R217). -/

namespace Sys2Proof.Machine

/-! ### The map -/

theorem Reg.mem_all (r : Reg) : r ∈ Reg.all := by cases r <;> decide

theorem Buffer.mem_all (b : Buffer) : b ∈ Buffer.all := by cases b <;> decide

/-- The registers lie below the buffers (R101). -/
theorem Reg.offset_lt (r : Reg) : r.offset < 0x54 := by cases r <;> decide

/-- The registers are the words from the window's start on, one after the other (R101). -/
theorem Reg.exists_offset_eq {off : Nat} (haligned : off % 4 = 0) (h : off < 0x54) : ∃ r : Reg, r.offset = off := by
  have hwords : ∀ k : Fin 21, (Reg.all.get k).offset = 4 * k := by decide
  exact ⟨_, (hwords ⟨off / 4, by omega⟩).trans (by simp only; omega)⟩

theorem locate_offset (r : Reg) : locate r.offset = some (.reg r) := by cases r <;> rfl

/-- A buffer's range reaches the buffer, at the byte index from its base (R101, R202). -/
theorem locate_of_holds {b : Buffer} {off : Nat} (h : b.holds off = true) :
    locate off = some (.buf b (off - b.base)) := by
  have hreg : (Reg.all.find? fun r => r.offset == off) = none := by
    refine List.find?_eq_none.2 fun r _ => ?_
    have hlow := r.offset_lt
    have hhigh := b.within_window
    have hoff := (Buffer.holds_iff b off).1 h
    simp only [beq_iff_eq]
    omega
  have hbuf : (Buffer.all.find? fun b => b.holds off) = some b := by
    cases hfind : Buffer.all.find? fun b => b.holds off with
    | none => exact absurd h (List.find?_eq_none.1 hfind b b.mem_all)
    | some b' => rw [Buffer.eq_of_holds b' b off (List.find?_some (p := fun c : Buffer => c.holds off) hfind) h]
  simp [locate, hreg, hbuf]

/-- What the map leaves out (R206). -/
theorem locate_eq_none_iff (off : Nat) :
    locate off = none ↔ (∀ r : Reg, r.offset ≠ off) ∧ ∀ b : Buffer, b.holds off = false := by
  constructor
  · intro hnone
    refine ⟨fun r hr => ?_, fun b => ?_⟩
    · rw [← hr, locate_offset] at hnone
      cases hnone
    · cases hb : b.holds off with
      | false => rfl
      | true =>
        rw [locate_of_holds hb] at hnone
        cases hnone
  · rintro ⟨hreg, hbuf⟩
    cases hl : locate off with
    | none => rfl
    | some l =>
      cases l with
      | reg r => exact absurd (locate_reg off r hl) (hreg r)
      | buf b index =>
        obtain ⟨hoff, hindex⟩ := locate_buf off b index hl
        have hholds := (Buffer.holds_iff b off).2 ⟨by omega, by omega⟩
        rw [hbuf b] at hholds
        cases hholds

theorem accessLocation_of_aligned {off : Nat} (h : off % 4 = 0) : accessLocation off 4 = locate off := by
  simp [accessLocation, h]

theorem accessLocation_offset (r : Reg) : accessLocation r.offset 4 = some (.reg r) := by
  rw [accessLocation_of_aligned (by cases r <;> rfl), locate_offset]

/-- The holes of the map, for aligned offsets of the window (R101, R206). -/
theorem accessLocation_eq_none_iff {off : Nat} (hwindow : off < 0x800) (haligned : off % 4 = 0) :
    accessLocation off 4 = none ↔
      (0x054 ≤ off ∧ off ≤ 0x0FF) ∨ (0x11C ≤ off ∧ off ≤ 0x13F) ∨ (0x224 ≤ off ∧ off ≤ 0x23F) ∨
        (0x2E0 ≤ off ∧ off ≤ 0x3FF) := by
  rw [accessLocation_of_aligned haligned, locate_eq_none_iff]
  constructor
  · rintro ⟨hreg, hbuf⟩
    have hlow : 0x54 ≤ off := by
      by_contra hlt
      obtain ⟨r, hr⟩ := Reg.exists_offset_eq haligned (Nat.lt_of_not_le hlt)
      exact hreg r hr
    have hout (b : Buffer) := (Buffer.not_holds_iff b off).1 (hbuf b)
    have hkey := hout .key
    have hnonce := hout .nonce
    have haad := hout .aad
    have hsalt := hout .salt
    have hikm := hout .ikm
    have hpriv := hout .priv
    have hpub := hout .pub
    have hpeer := hout .peer
    have hshared := hout .shared
    have hinput := hout .input
    have houtput := hout .output
    simp only [Buffer.base, Buffer.size] at *
    omega
  · intro hhole
    refine ⟨fun r => ?_, fun b => (Buffer.not_holds_iff b off).2 ?_⟩
    · have hlow := r.offset_lt
      omega
    · cases b <;> simp only [Buffer.base, Buffer.size] <;> omega

/-! ### Accesses inside the window -/

/-- An offset inside the window is the offset the MSC decodes (R201, R202). -/
theorem windowOffset_mscBase_add {off : Nat} (h : off < 0x800) : windowOffset (Config.mscBase + off) = some off := by
  simp [windowOffset, h]

theorem State.busReply_read (s : State) {off : Nat} (h : off < 0x800) (bytes : Nat) :
    s.busReply (.read (Config.mscBase + off) bytes) = s.windowRead off bytes := by
  simp only [State.busReply, windowOffset_mscBase_add h]

theorem State.busReply_write (s : State) {off : Nat} (h : off < 0x800) (bytes : Nat) (v : Word) :
    s.busReply (.write (Config.mscBase + off) bytes v) = writeReply off bytes := by
  simp only [State.busReply, windowOffset_mscBase_add h]

theorem State.busEffect_write (s : State) {off : Nat} (h : off < 0x800) (bytes : Nat) (v : Word) :
    s.busEffect (.write (Config.mscBase + off) bytes v) = s.windowWrite off bytes v := by
  simp only [State.busEffect, windowOffset_mscBase_add h]

theorem State.windowWrite_of_some (s : State) {off bytes : Nat} {l : Location}
    (h : accessLocation off bytes = some l) (v : Word) : s.windowWrite off bytes v = s.hostWrite v l := by
  simp only [State.windowWrite, h]

theorem State.windowWrite_of_none (s : State) {off bytes : Nat} (h : accessLocation off bytes = none) (v : Word) :
    s.windowWrite off bytes v = s := by
  simp only [State.windowWrite, h]

/-- An access of another width, unaligned or unmapped reaches nothing (R203 to R206). -/
theorem accessLocation_eq_none_of_refused {off bytes : Nat} (h : bytes ≠ 4 ∨ off % 4 ≠ 0 ∨ locate off = none) :
    accessLocation off bytes = none := by
  refine Option.eq_none_iff_forall_ne_some.2 fun l hl => ?_
  obtain ⟨hbytes, haligned, hloc⟩ := (accessLocation_eq_some_iff off bytes l).1 hl
  rcases h with h | h | h
  · exact h hbytes
  · exact h haligned
  · rw [h] at hloc
    cases hloc

/-! ### Registers -/

/-- STATUS, read as a word, is the sum of its four bits in their places (R105). -/
theorem State.regRead_status (s : State) : s.regRead .status =
    (if s.fsm = .idle then 0x0 else 0x1) ||| (if s.dValid then 0x2 else 0x0) |||
      (if s.peerValid then 0x4 else 0x0) ||| (if s.sharedValid then 0x8 else 0x0) := by
  have hbusy : s.busyFlag = !decide (s.fsm = .idle) := by
    cases h : s.fsm <;> simp [State.busyFlag, h]
  simp only [State.regRead, State.status, hbusy]
  by_cases hidle : s.fsm = .idle <;> cases s.dValid <;> cases s.peerValid <;> cases s.sharedValid <;>
    simp [hidle]

/-- Held at `k` bits, a word keeps its low `k` bits (R116, R209). -/
theorem setWidth_setWidth_eq_and {k : Nat} (hk : k ≤ 32) (v : Word) :
    (v.setWidth k).setWidth 32 = v &&& BitVec.ofNat 32 (2 ^ k - 1) := by
  have hpow : 2 ^ k ≤ 2 ^ 32 := Nat.pow_le_pow_right (by decide) hk
  apply BitVec.eq_of_toNat_eq
  rw [BitVec.toNat_and, BitVec.toNat_ofNat, Nat.mod_eq_of_lt (by omega), Nat.and_two_pow_sub_one_eq_mod,
    BitVec.toNat_setWidth, BitVec.toNat_setWidth]
  exact Nat.mod_eq_of_lt ((Nat.mod_lt _ (Nat.two_pow_pos k)).trans_le hpow)

/-- A read-write register reads the used bits of the last value written (R116, R209). -/
theorem State.regRead_regWrite_self (s : State) (v : Word) {r : Reg} (h : r.access = .readWrite) :
    (s.regWrite v r).regRead r = v &&& usedBits r := by
  cases r with
  | ctrl => exact setWidth_setWidth_eq_and (k := 2) (by decide) v
  | irqEn => exact setWidth_setWidth_eq_and (k := 3) (by decide) v
  | aadLen | inLen | saltLen | ikmLen | privLen | rxCtrHi => exact setWidth_setWidth_eq_and (k := 16) (by decide) v
  | counter | pad | iv => exact (BitVec.and_allOnes (x := v)).symm
  | id | version | status | cmd | result | irqStat | outLen | rxCounter | rxSize | crcResult => cases h

/-- A write of a read-write register is seen in no other register, STATUS's view of the hidden state included: the
other register reads another field, which the write leaves. -/
theorem State.regRead_regWrite_of_ne (s : State) (v : Word) {r r' : Reg} (h : r.access = .readWrite) (hne : r' ≠ r) :
    (s.regWrite v r).regRead r' = s.regRead r' := by
  cases r with
  | id | version | status | cmd | result | irqStat | outLen | rxCounter | rxSize | crcResult => cases h
  | ctrl | irqEn | aadLen | inLen | saltLen | ikmLen | privLen | rxCtrHi | counter | pad | iv =>
    cases r' <;> first | rfl | exact absurd rfl hne

theorem State.regWrite_readOnly (s : State) (v : Word) {r : Reg} (h : r.access = .readOnly) : s.regWrite v r = s := by
  cases r with
  | id | version | status | result | outLen | rxCounter | rxSize | crcResult => rfl
  | ctrl | cmd | irqEn | irqStat | aadLen | inLen | saltLen | ikmLen | privLen | counter | rxCtrHi | pad | iv => cases h

/-- A read-write register's write stays in the registers (R141). -/
theorem State.regWrite_frame (s : State) (v : Word) {r : Reg} (h : r.access = .readWrite) :
    (s.regWrite v r).mem = s.mem ∧ (s.regWrite v r).d = s.d ∧ (s.regWrite v r).fsm = s.fsm := by
  cases r with
  | cmd => cases h
  | _ => exact ⟨rfl, rfl, rfl⟩

end Sys2Proof.Machine

namespace Sys2Proof.Proofs

open Sys2Proof.Machine

/-- Settles O51: while IDLE a register's write is performed, and `regWrite`'s rules say what it does. -/
theorem registerWritesKeepTheUsedBits : Obligations.RegisterWritesKeepTheUsedBits := by
  intro s v r hidle
  rw [s.hostWrite_of_idle hidle, State.locationWrite]
  exact ⟨s.regWrite_readOnly v, fun hrw =>
    ⟨s.regRead_regWrite_self v hrw, fun r' hne => s.regRead_regWrite_of_ne v hrw hne, s.regWrite_frame v hrw⟩⟩

/-- Settles O46. -/
theorem offsetsReachTheMapsLocations : Obligations.OffsetsReachTheMapsLocations := by
  refine ⟨⟨accessLocation_offset .id, accessLocation_offset .version, accessLocation_offset .ctrl,
    accessLocation_offset .status, accessLocation_offset .cmd, accessLocation_offset .result,
    accessLocation_offset .irqEn, accessLocation_offset .irqStat, accessLocation_offset .aadLen,
    accessLocation_offset .inLen, accessLocation_offset .outLen, accessLocation_offset .saltLen,
    accessLocation_offset .ikmLen, accessLocation_offset .privLen, accessLocation_offset .counter,
    accessLocation_offset .rxCtrHi, accessLocation_offset .rxCounter, accessLocation_offset .rxSize,
    accessLocation_offset .crcResult, accessLocation_offset .pad, accessLocation_offset .iv⟩, ?_, ?_, ?_⟩
  · intro off hwindow haligned
    have hrange (b : Buffer) (last : Nat) (hlast : last + 1 = b.base + b.size) (hlo : b.base ≤ off) (hhi : off ≤ last) :
        accessLocation off 4 = some (.buf b (off - b.base)) := by
      rw [accessLocation_of_aligned haligned]
      exact locate_of_holds ((Buffer.holds_iff b off).2 ⟨hlo, by omega⟩)
    exact ⟨hrange .key _ rfl, hrange .nonce _ rfl, hrange .aad _ rfl, hrange .salt _ rfl, hrange .ikm _ rfl,
      hrange .priv _ rfl, hrange .pub _ rfl, hrange .peer _ rfl, hrange .shared _ rfl, hrange .input _ rfl,
      hrange .output _ rfl, accessLocation_eq_none_iff hwindow haligned⟩
  · intro r
    cases r <;> rfl
  · intro b
    cases b <;> rfl

/-- Settles O47, by whether the access reaches a location. -/
theorem accessesAnswerAValueOrABusError : Obligations.AccessesAnswerAValueOrABusError := by
  refine ⟨fun s off l hl => ?_, fun s r => ?_, fun s off bytes v hwindow hrefused => ?_⟩
  · have hwindow := locate_lt off l ((accessLocation_eq_some_iff off 4 l).1 hl).2.2
    refine ⟨?_, rfl, fun v => ⟨?_, ?_, s.windowWrite_of_some hl v⟩⟩
    · rw [s.busReply_read hwindow, State.windowRead, hl]
    · rw [s.busReply_write hwindow, writeReply, hl]
    · rw [s.busEffect_write hwindow, s.windowWrite_of_some hl]
  · cases r with
    | status => exact s.regRead_status
    | id | version | cmd | counter | rxCounter | pad | iv => rfl
    | ctrl | result | irqEn | irqStat | aadLen | inLen | outLen | saltLen | ikmLen | privLen | rxCtrHi | rxSize
    | crcResult => simp only [State.locationRead, State.regRead, BitVec.ofNat_toNat]
  · have hnone := accessLocation_eq_none_of_refused hrefused
    refine ⟨?_, ?_, rfl, ?_⟩
    · rw [s.busReply_read hwindow, State.windowRead, hnone]
    · rw [s.busReply_write hwindow, writeReply, hnone]
    · rw [s.busEffect_write hwindow, s.windowWrite_of_none hnone]

/-- Settles O53: of the buffers the host may write, PEER alone touches its valid bit. -/
theorem peerWriteClearsPeerValid : Obligations.PeerWriteClearsPeerValid := by
  intro s v b index hidle
  rw [s.hostWrite_of_idle hidle, State.locationWrite, State.bufWordWrite_eq]
  split
  · next hreadOnly =>
    have hb : b ≠ .peer := by
      rintro rfl
      cases hreadOnly
    rw [if_neg hb]
  · rfl

end Sys2Proof.Proofs
end

section
/-! The range of the window, the host's writes while BUSY, and the byte lanes of a buffer word (R201, R206, R210,
R216, R221). -/

namespace Sys2Proof.Machine

/-! ### The range of the window -/

/-- What lies outside the window is not decoded (R206). -/
theorem windowOffset_eq_none_iff (addr : Nat) :
    windowOffset addr = none ↔ addr < Config.mscBase ∨ Config.mscBase + 2048 ≤ addr := by
  simp only [windowOffset, Config.windowBytes]
  split
  · next hin =>
    simp only [reduceCtorEq, false_iff]
    omega
  · next hout =>
    simp only [true_iff]
    omega

/-! ### Writes while BUSY -/

theorem Location.writableWhileBusy_iff (l : Location) :
    l.writableWhileBusy = true ↔ l = .reg .irqEn ∨ l = .reg .irqStat := by
  cases l with
  | reg r => simp [Location.writableWhileBusy]
  | buf b index => simp [Location.writableWhileBusy]

/-- A write to IRQ_EN or IRQ_STAT is performed in both FSM states (R216). -/
theorem State.hostWrite_of_writableWhileBusy (s : State) (v : Word) {l : Location} (h : l.writableWhileBusy = true) :
    s.hostWrite v l = s.locationWrite v l := by
  simp [State.hostWrite, h]

/-- While BUSY a write to any other location is dropped (R216). -/
theorem State.hostWrite_of_busy {s : State} {w : Word} (hbusy : s.fsm = .busy w) (v : Word) {l : Location}
    (h : l.writableWhileBusy = false) : s.hostWrite v l = { s with irqStat := s.irqStat ||| ovrBit } := by
  simp [State.hostWrite, State.busyFlag, hbusy, h]

/-- While BUSY a write reaches IRQ_EN and IRQ_STAT only: it is performed there, or dropped with OVR set. -/
theorem State.hostWrite_frame_of_busy {s : State} {w : Word} (hbusy : s.fsm = .busy w) (v : Word) (l : Location) :
    s.hostWrite v l = { s with irqEn := (s.hostWrite v l).irqEn, irqStat := (s.hostWrite v l).irqStat } := by
  cases h : l.writableWhileBusy with
  | false => rw [State.hostWrite_of_busy hbusy v h]
  | true =>
    rw [s.hostWrite_of_writableWhileBusy v h]
    rcases l.writableWhileBusy_iff.1 h with rfl | rfl <;> rfl

/-! ### The lanes of a word -/

/-- Byte `j` of a little-endian encoding is digit `j` to base 256. -/
theorem byteAt_leBytes {k j : Nat} (h : j < k) (v : Nat) : byteAt (leBytes k v) j = BitVec.ofNat 8 (v / 256 ^ j) := by
  induction k generalizing j v with
  | zero => exact absurd h (Nat.not_lt_zero j)
  | succ k ih =>
    cases j with
    | zero => simp [leBytes, byteAt]
    | succ j =>
      calc byteAt (leBytes (k + 1) v) (j + 1) = byteAt (leBytes k (v / 256)) j := rfl
        _ = BitVec.ofNat 8 (v / 256 / 256 ^ j) := ih (Nat.lt_of_succ_lt_succ h) (v / 256)
        _ = BitVec.ofNat 8 (v / 256 ^ (j + 1)) := by rw [Nat.div_div_eq_div_mul, pow_succ']

/-- Byte `j` of a word's encoding is the word's bits `8j+7:8j` (R210). -/
theorem byteAt_leBytes_word {j : Nat} (h : j < 4) (v : Word) :
    byteAt (leBytes 4 v.toNat) j = v.extractLsb' (8 * j) 8 := by
  rw [byteAt_leBytes h, BitVec.extractLsb', Nat.shiftRight_eq_div_pow, pow_mul, show 2 ^ 8 = 256 from rfl]

/-- A word decodes to itself from its four bytes. -/
theorem ofNat_intLE_leBytes_word (v : Word) : BitVec.ofNat 32 (intLE (leBytes 4 v.toNat)) = v := by
  rw [intLE_leBytes, show 256 ^ 4 = 2 ^ 32 from rfl, Nat.mod_eq_of_lt v.isLt, BitVec.ofNat_toNat, BitVec.setWidth_eq]

theorem intLE_lt (s : ByteString) : intLE s < 256 ^ s.length := by
  induction s with
  | nil => simp [intLE]
  | cons b s ih =>
    rw [intLE, List.length_cons, pow_succ']
    have := b.isLt
    omega

/-- In canonical form the bytes of a string are read where it was written. -/
theorem Memory.read_writeBytes_of_inside {m : Memory} (hm : wf m = true) (a : Nat) (s : ByteString) {j : Nat}
    (h : j < s.length) : read (writeBytes m a s) (a + j) = byteAt s j := by
  rw [← byteAt_readBytes _ a s.length j h, readBytes_writeBytes m a s hm]

/-! ### Words of a buffer -/

/-- An aligned word that starts in a buffer ends in it (R101). -/
theorem Buffer.word_fits {b : Buffer} {index : Nat} (haligned : index % 4 = 0) (h : index < b.size) :
    index + 4 ≤ b.size := by
  obtain ⟨-, hsize⟩ := b.word_aligned
  omega

/-- KEY reads 0 (R207), every other buffer the integer of the word's four bytes (R210). -/
theorem State.bufWordRead_eq (s : State) (b : Buffer) (index : Nat) :
    s.bufWordRead b index =
      if b = .key then 0 else BitVec.ofNat 32 (intLE (Memory.readBytes s.mem (b.base + index) 4)) := by
  cases b <;> rfl

/-- A buffer's word is the sum of its bytes in little-endian order, as the buffer holds them (R210). -/
theorem State.toNat_bufWordRead (s : State) {b : Buffer} {index : Nat} (hb : b ≠ .key) (hfits : index + 4 ≤ b.size) :
    (s.bufWordRead b index).toNat =
      (byteAt (s.buf b) index).toNat + (byteAt (s.buf b) (index + 1)).toNat * 256 +
        (byteAt (s.buf b) (index + 2)).toNat * 256 ^ 2 + (byteAt (s.buf b) (index + 3)).toNat * 256 ^ 3 := by
  have hlt : intLE (Memory.readBytes s.mem (b.base + index) 4) < 2 ^ 32 := by
    simpa using intLE_lt (Memory.readBytes s.mem (b.base + index) 4)
  rw [s.bufWordRead_eq, if_neg hb, BitVec.toNat_ofNat, Nat.mod_eq_of_lt hlt, s.byteAt_buf b _ (by omega),
    s.byteAt_buf b _ (by omega), s.byteAt_buf b _ (by omega), s.byteAt_buf b _ (by omega)]
  simp only [Memory.readBytes, intLE, Nat.add_assoc]
  ring

end Sys2Proof.Machine

namespace Sys2Proof.Proofs

open Sys2Proof.Machine

/-- Settles O45. -/
theorem windowIsTwoKilobytesAtTheBase : Obligations.WindowIsTwoKilobytesAtTheBase :=
  ⟨Nat.mul_mod_right _ _, fun _ hoff => windowOffset_mscBase_add hoff, windowOffset_eq_none_iff⟩

/-- Settles O48: a location reached at neither register's offset is neither register. -/
theorem writesWhileBusyAreDropped : Obligations.WritesWhileBusyAreDropped := by
  intro s v
  refine ⟨?_, ?_, fun w off l hbusy hl hirqEn hirqStat => ?_⟩
  · exact (s.windowWrite_of_some (accessLocation_offset .irqEn) v).trans (s.hostWrite_of_writableWhileBusy v rfl)
  · exact (s.windowWrite_of_some (accessLocation_offset .irqStat) v).trans (s.hostWrite_of_writableWhileBusy v rfl)
  · have hdropped : l.writableWhileBusy = false := by
      refine Bool.eq_false_iff.2 fun hwritable => ?_
      rcases l.writableWhileBusy_iff.1 hwritable with rfl | rfl
      · exact hirqEn (offset_of_accessLocation_reg hl)
      · exact hirqStat (offset_of_accessLocation_reg hl)
    rw [s.windowWrite_of_some hl, State.hostWrite_of_busy hbusy v hdropped]

/-- Settles O49: a host step is at most one write to a location, which while BUSY reaches the two registers only. -/
theorem operandsAreStableWhileBusy : Obligations.OperandsAreStableWhileBusy := by
  intro s w hbusy
  obtain ⟨program, log, u, hmove, rfl | ⟨addr, v, off, l, -, -, -, rfl⟩⟩ := s.hostMove_cases
  · rw [hmove]
    rfl
  · rw [hmove, State.hostWrite_frame_of_busy (s := s.withProgram program) hbusy v l]
    rfl

/-- Settles O52: a word is written and read as its four bytes in little-endian order. -/
theorem bufferWordsUseLittleEndianLanes : Obligations.BufferWordsUseLittleEndianLanes := by
  refine ⟨fun s b index haligned hindex => ?_, fun s v b index hwf hidle haligned hindex => ?_⟩
  · rw [State.locationRead]
    split
    · next hkey => rw [s.bufWordRead_eq, if_pos hkey]; rfl
    · next hkey => exact s.toNat_bufWordRead hkey (Buffer.word_fits haligned hindex)
  · rw [s.hostWrite_of_idle hidle, State.locationWrite, State.locationRead, s.bufWordWrite_eq]
    split
    · rfl
    · have hlength : (leBytes 4 v.toNat).length = 4 := leBytes_length 4 _
      refine ⟨fun j hj => ?_, fun a ha => ?_, ?_⟩
      · rw [Memory.read_writeBytes_of_inside hwf _ _ (by rwa [hlength]), byteAt_leBytes_word hj]
      · exact Memory.read_writeBytes_of_outside _ _ _ _ (by rwa [hlength])
      · have hbytes := Memory.readBytes_writeBytes s.mem (b.base + index) (leBytes 4 v.toNat) hwf
        rw [hlength] at hbytes
        rw [State.bufWordRead_eq, hbytes, ofNat_intLE_leBytes_word]

end Sys2Proof.Proofs
end

section
/-! The fields of a word and of a command, and the decoder as the inverse of the encoder (R301 to R312). -/

namespace Sys2Proof

open Sys2Proof.Laws

/-! ### Words and their fields -/

/-- The bits of a word, field by field (R301). -/
theorem getLsbD_wordOf (c : CmdFields) (k : Nat) : (wordOf c).getLsbD k =
    if k < 8 then c.opcode.getLsbD k else if k = 8 then c.f0 else if k = 9 then c.f1
    else c.rsvd.getLsbD (k - 10) := by
  rw [wordOf, BitVec.getLsbD_append, BitVec.getLsbD_append, BitVec.getLsbD_append]
  simp only [BitVec.getLsbD_ofBool, Nat.sub_sub]
  split
  · rfl
  next hopcode =>
  split
  · next hlow =>
    obtain rfl : k = 8 := by omega
    simp
  next hf0 =>
  split
  · next hlow =>
    obtain rfl : k = 9 := by omega
    simp
  · rw [if_neg (by omega), if_neg (by omega)]

@[simp] theorem fieldsOf_wordOf (c : CmdFields) : fieldsOf (wordOf c) = c := by
  have hopcode : (wordOf c).extractLsb' 0 8 = c.opcode := BitVec.extractLsb'_append_eq_right
  have hf0 : (wordOf c).getLsbD 8 = c.f0 := getLsbD_wordOf c 8
  have hf1 : (wordOf c).getLsbD 9 = c.f1 := getLsbD_wordOf c 9
  have hrsvd : (wordOf c).extractLsb' 10 22 = c.rsvd := by
    refine BitVec.eq_of_getLsbD_eq fun k hk => ?_
    have hplace : 10 + k - 10 = k := by omega
    rw [BitVec.getLsbD_extractLsb', getLsbD_wordOf, if_neg (by omega), if_neg (by omega), if_neg (by omega), hplace]
    simp [hk]
  simp only [fieldsOf, hopcode, hf0, hf1, hrsvd]

/-- The four fields are the whole word: no bit is dropped (R301). -/
theorem wordOf_fieldsOf (w : Word) : wordOf (fieldsOf w) = w := by
  refine BitVec.eq_of_getLsbD_eq fun k hk => ?_
  rw [getLsbD_wordOf]
  split
  · next hopcode => simp [fieldsOf, hopcode]
  split
  · next hf0 => rw [hf0, fieldsOf]
  split
  · next hf1 => rw [hf1, fieldsOf]
  · have hplace : 10 + (k - 10) = k := by omega
    have hrsvd : k - 10 < 22 := by omega
    simp [fieldsOf, hplace, hrsvd]

theorem fieldsOf_eq_iff (w : Word) (c : CmdFields) : fieldsOf w = c ↔ w = wordOf c := by
  constructor
  · rintro rfl
    exact (wordOf_fieldsOf w).symm
  · rintro rfl
    exact fieldsOf_wordOf c

/-! ### The fields of a command -/

/-- The fields of a command's word (R306, R307). -/
def Instr.fields (i : Instr) : CmdFields where
  opcode := opcode i
  f0 := flag0 i
  f1 := flag1 i
  rsvd := 0

theorem encode_eq_wordOf_fields (i : Instr) : encode i = wordOf i.fields := rfl

theorem CmdFields.eq_fields {c : CmdFields} {i : Instr} (hopcode : c.opcode = Sys2Proof.opcode i)
    (hf0 : c.f0 = flag0 i) (hf1 : c.f1 = flag1 i) (hrsvd : c.rsvd = 0) : c = i.fields := by
  cases c
  simp_all [Instr.fields]

/-- The four checks of R308, one by one. -/
theorem CmdFields.wellFormed_iff (c : CmdFields) : c.wellFormed = true ↔
    c.opcode ∈ listedOpcodes ∧ c.rsvd = 0 ∧ (c.f0 = true → c.opcode ∈ f0Opcodes) ∧
      (c.f1 = true → c.opcode ∈ f1Opcodes) := by
  simp only [wellFormed, opcodeListed, reservedZero, f0Allowed, f1Allowed, Bool.and_eq_true, Bool.or_eq_true,
    Bool.not_eq_true', List.contains_iff_mem, beq_iff_eq, and_assoc]
  cases c.f0 <;> cases c.f1 <;> simp

/-- Every command's fields pass the four checks. -/
theorem Instr.fields_wellFormed (i : Instr) : i.fields.wellFormed = true := by
  have hlegal : EncodedWordLegal.Statement i := by
    cases i with
    | nop => exact EncodedWordLegal.nop
    | zeroize => exact EncodedWordLegal.zeroize
    | ecKeygen => exact EncodedWordLegal.ecKeygen
    | ecImportPriv => exact EncodedWordLegal.ecImportPriv
    | ecExportPriv => exact EncodedWordLegal.ecExportPriv
    | ecImportPub => exact EncodedWordLegal.ecImportPub
    | ecAgree => exact EncodedWordLegal.ecAgree
    | hkdf saltp ikmsrc => exact EncodedWordLegal.hkdf saltp ikmsrc
    | hmac => exact EncodedWordLegal.hmac
    | ccmEnc => exact EncodedWordLegal.ccmEnc
    | ccmDec => exact EncodedWordLegal.ccmDec
    | devidEnc => exact EncodedWordLegal.devidEnc
    | frameEnc padsrc => exact EncodedWordLegal.frameEnc padsrc
    | frameDec => exact EncodedWordLegal.frameDec
    | crc16 => exact EncodedWordLegal.crc16
  rw [← fieldsOf_wordOf i.fields]
  exact hlegal.1

/-- Fields that pass the checks, with the opcode of a command that has no flag, are that command's: both flags can
only be 0 (R308 (c), (d)). -/
theorem CmdFields.eq_fields_of_flagless {c : CmdFields} {i : Instr} (h : c.wellFormed = true)
    (hopcode : c.opcode = Sys2Proof.opcode i) (hf0 : Sys2Proof.opcode i ∉ f0Opcodes)
    (hf1 : Sys2Proof.opcode i ∉ f1Opcodes) : c = i.fields := by
  obtain ⟨-, hrsvd, hc0, hc1⟩ := c.wellFormed_iff.1 h
  obtain ⟨-, -, hi0, hi1⟩ := i.fields.wellFormed_iff.1 i.fields_wellFormed
  rw [hopcode] at hc0 hc1
  have hflag0 : flag0 i = false := Bool.eq_false_iff.2 fun hi => hf0 (hi0 hi)
  have hflag1 : flag1 i = false := Bool.eq_false_iff.2 fun hi => hf1 (hi1 hi)
  have hcflag0 : c.f0 = false := Bool.eq_false_iff.2 fun hc => hf0 (hc0 hc)
  have hcflag1 : c.f1 = false := Bool.eq_false_iff.2 fun hc => hf1 (hc1 hc)
  exact eq_fields hopcode (hcflag0.trans hflag0.symm) (hcflag1.trans hflag1.symm) hrsvd

/-- Fields that pass the four checks are a command's: one row of the map of R306 for each listed opcode. -/
theorem CmdFields.exists_eq_fields {c : CmdFields} (h : c.wellFormed = true) : ∃ i : Instr, c = i.fields := by
  have hflagless (i : Instr) (hopcode : c.opcode = Sys2Proof.opcode i) (hf0 : Sys2Proof.opcode i ∉ f0Opcodes)
      (hf1 : Sys2Proof.opcode i ∉ f1Opcodes) : ∃ i : Instr, c = i.fields :=
    ⟨i, eq_fields_of_flagless h hopcode hf0 hf1⟩
  obtain ⟨hlisted, hrsvd, -, hf1Listed⟩ := c.wellFormed_iff.1 h
  simp only [listedOpcodes, List.mem_cons, List.not_mem_nil, or_false] at hlisted
  rcases hlisted with ho | ho | ho | ho | ho | ho | ho | ho | ho | ho | ho | ho | ho | ho | ho
  · exact hflagless .nop ho (by decide) (by decide)
  · exact hflagless .zeroize ho (by decide) (by decide)
  · exact hflagless .ecKeygen ho (by decide) (by decide)
  · exact hflagless .ecImportPriv ho (by decide) (by decide)
  · exact hflagless .ecExportPriv ho (by decide) (by decide)
  · exact hflagless .ecImportPub ho (by decide) (by decide)
  · exact hflagless .ecAgree ho (by decide) (by decide)
  · exact ⟨.hkdf c.f0 c.f1, eq_fields ho rfl rfl hrsvd⟩
  · exact hflagless .hmac ho (by decide) (by decide)
  · exact hflagless .ccmEnc ho (by decide) (by decide)
  · exact hflagless .ccmDec ho (by decide) (by decide)
  · exact hflagless .devidEnc ho (by decide) (by decide)
  · have hf1 : c.f1 = false := Bool.eq_false_iff.2 fun hc => absurd (hf1Listed hc) (by rw [ho]; decide)
    exact ⟨.frameEnc c.f0, eq_fields ho rfl hf1 hrsvd⟩
  · exact hflagless .frameDec ho (by decide) (by decide)
  · exact hflagless .crc16 ho (by decide) (by decide)

theorem CmdFields.wellFormed_iff_exists (c : CmdFields) : c.wellFormed = true ↔ ∃ i : Instr, c = i.fields := by
  constructor
  · exact exists_eq_fields
  · rintro ⟨i, rfl⟩
    exact i.fields_wellFormed

/-! ### The decoder -/

theorem decodeFields_fields (i : Instr) : decodeFields i.fields = .ok i := by cases i <;> rfl

/-- A command with no flags is read from its own fields only. -/
theorem eq_fields_of_plainCommand {c : CmdFields} {i j : Instr} (h : plainCommand c i = .ok j) (hrsvd : c.rsvd = 0)
    (hopcode : c.opcode.toNat = (opcode i).toNat) (hflag0 : flag0 i = false) (hflag1 : flag1 i = false) :
    c = j.fields := by
  unfold plainCommand at h
  split at h
  · cases h
  next hf0 =>
  split at h
  · cases h
  next hf1 =>
  cases h
  exact CmdFields.eq_fields (BitVec.eq_of_toNat_eq hopcode) ((Bool.eq_false_iff.2 hf0).trans hflag0.symm)
    ((Bool.eq_false_iff.2 hf1).trans hflag1.symm) hrsvd

/-- The decoder answers a command for that command's fields only: the case split over the opcodes it lists. -/
theorem eq_fields_of_decodeFields {c : CmdFields} {i : Instr} (h : decodeFields c = .ok i) : c = i.fields := by
  unfold decodeFields at h
  split at h
  · cases h
  next hreserved =>
  have hrsvd : c.rsvd = 0 := not_not.1 hreserved
  split at h
  case h_8 hopcode =>
    cases h
    exact CmdFields.eq_fields (BitVec.eq_of_toNat_eq hopcode) rfl rfl hrsvd
  case h_13 hopcode =>
    split at h
    · cases h
    next hf1 =>
    cases h
    exact CmdFields.eq_fields (BitVec.eq_of_toNat_eq hopcode) rfl (Bool.eq_false_iff.2 hf1) hrsvd
  case h_16 => cases h
  all_goals
    next hopcode => exact eq_fields_of_plainCommand h hrsvd hopcode rfl rfl

theorem decodeFields_eq_ok_iff (c : CmdFields) (i : Instr) : decodeFields c = .ok i ↔ c = i.fields := by
  constructor
  · exact eq_fields_of_decodeFields
  · rintro rfl
    exact decodeFields_fields i

/-- A word decodes to the commands whose fields it has. -/
theorem decode_eq_ok_iff (w : Word) (i : Instr) : decode w = .ok i ↔ fieldsOf w = i.fields :=
  decodeFields_eq_ok_iff (fieldsOf w) i

theorem decode_encode (i : Instr) : decode (encode i) = .ok i :=
  (decode_eq_ok_iff _ i).2 (fieldsOf_wordOf i.fields)

end Sys2Proof

namespace Sys2Proof.Proofs

/-- Settles O2: a word is determined by its fields, and the decoder answers a command for that command's fields only. -/
theorem decodeAndEncodeAgree : Obligations.DecodeAndEncodeAgree := fun w i =>
  calc decode w = .ok i ↔ fieldsOf w = i.fields := decode_eq_ok_iff w i
    _ ↔ w = wordOf i.fields := fieldsOf_eq_iff w i.fields
    _ ↔ w = encode i := by rw [encode_eq_wordOf_fields]

/-- Settles O3: the fields that pass the four checks are those of a command. -/
theorem decoderAcceptsExactlyTheLegalWords : Obligations.DecoderAcceptsExactlyTheLegalWords := fun w =>
  calc (∃ i, decode w = .ok i) ↔ ∃ i : Instr, fieldsOf w = i.fields := exists_congr (decode_eq_ok_iff w)
    _ ↔ (fieldsOf w).wellFormed = true := (fieldsOf w).wellFormed_iff_exists.symm

/-- Settles O1: each word is its command's encoding. -/
theorem legalWordsDecodeToTheirCommands : Obligations.LegalWordsDecodeToTheirCommands :=
  ⟨decode_encode .nop, decode_encode .zeroize, decode_encode .ecKeygen, decode_encode .ecImportPriv,
    decode_encode .ecExportPriv, decode_encode .ecImportPub, decode_encode .ecAgree,
    decode_encode (.hkdf false false), decode_encode (.hkdf true false), decode_encode (.hkdf false true),
    decode_encode (.hkdf true true), decode_encode .hmac, decode_encode .ccmEnc, decode_encode .ccmDec,
    decode_encode .devidEnc, decode_encode (.frameEnc false), decode_encode (.frameEnc true),
    decode_encode .frameDec, decode_encode .crc16⟩

end Sys2Proof.Proofs
end

section
/-! The lines of a host program, run: `wait`, `run` and `load`, with nothing scheduled, so that the engine moves if it
is BUSY, else the host (R313 to R315; log 4). -/

namespace Sys2Proof.Machine

/-! ### Bytes and words -/

theorem leBytes_zero (k : Nat) : leBytes k 0 = zeros k := by
  induction k with
  | zero => rfl
  | succ k ih => rw [leBytes, Nat.zero_div, ih, zeros_succ, BitVec.ofNat_eq_ofNat]

/-- A string is the little-endian encoding of its integer, with zeros past its end. -/
theorem leBytes_intLE {s : ByteString} {k : Nat} (h : s.length ≤ k) :
    leBytes k (intLE s) = s ++ zeros (k - s.length) := by
  induction s generalizing k with
  | nil => exact leBytes_zero k
  | cons b s ih =>
    cases k with
    | zero => simp at h
    | succ k =>
      have hlow : BitVec.ofNat 8 (b.toNat + 256 * intLE s) = b :=
        BitVec.eq_of_toNat_eq (by have := b.isLt; rw [BitVec.toNat_ofNat]; omega)
      have hhigh : (b.toNat + 256 * intLE s) / 256 = intLE s := by have := b.isLt; omega
      rw [intLE, leBytes, hlow, hhigh, ih (by simpa using h), List.length_cons, Nat.add_sub_add_right, List.cons_append]

/-- The bytes of the word that `load` writes for up to four bytes: the bytes and then zeros (R315). -/
theorem leBytes_loadWord {s : ByteString} (h : s.length ≤ 4) :
    leBytes 4 (BitVec.ofNat 32 (intLE s)).toNat = s ++ zeros (4 - s.length) := by
  have hlt : intLE s < 2 ^ 32 := (intLE_lt s).trans_le (Nat.pow_le_pow_right (n := 256) (by decide) h)
  rw [BitVec.toNat_ofNat, Nat.mod_eq_of_lt hlt, leBytes_intLE h]

theorem zeros_add (i j : Nat) : zeros (i + j) = zeros i ++ zeros j := List.replicate_add i j 0

/-- A string padded to `k + 1` words is its first four bytes padded to a word, then the others padded to `k` words. -/
theorem pad_words_succ (s : ByteString) (k : Nat) :
    s ++ zeros ((k + 1) * 4 - s.length) =
      (s.take 4 ++ zeros (4 - (s.take 4).length)) ++ (s.drop 4 ++ zeros (k * 4 - (s.drop 4).length)) := by
  rw [List.length_take, List.length_drop]
  rcases Nat.le_total 4 s.length with hlong | hshort
  · have hlen : k * 4 - (s.length - 4) = (k + 1) * 4 - s.length := by omega
    rw [Nat.min_eq_left hlong, hlen, Nat.sub_self, zeros_zero, List.append_nil, ← List.append_assoc,
      List.take_append_drop]
  · have hlen : (k + 1) * 4 - s.length = (4 - s.length) + k * 4 := by omega
    rw [Nat.min_eq_right hshort, List.take_of_length_le hshort, List.drop_of_length_le hshort,
      Nat.sub_eq_zero_of_le hshort, Nat.sub_zero, List.nil_append, hlen, zeros_add, List.append_assoc]

/-! ### Strings in memory -/

theorem Memory.writeBytes_append (m : Memory) (a : Nat) (s t : ByteString) :
    writeBytes m a (s ++ t) = writeBytes (writeBytes m a s) (a + s.length) t := by
  induction s generalizing m a with
  | nil => rfl
  | cons b s ih =>
    rw [List.cons_append, writeBytes, writeBytes, ih, List.length_cons]
    congr 1
    omega

theorem Memory.readBytes_add (m : Memory) (a i j : Nat) :
    readBytes m a (i + j) = readBytes m a i ++ readBytes m (a + i) j := by
  induction i generalizing a with
  | zero => simp [readBytes]
  | succ i ih =>
    have hplace : a + (i + 1) = a + 1 + i := by omega
    rw [Nat.succ_add, readBytes, readBytes, ih, List.cons_append, hplace]

/-- A range read after a string was written at its start: the string, then the range's other bytes as before. -/
theorem Memory.readBytes_writeBytes_start {m : Memory} (hm : wf m = true) (a : Nat) {n : Nat} {s : ByteString}
    (h : s.length ≤ n) : readBytes (writeBytes m a s) a n = s ++ (readBytes m a n).drop s.length := by
  obtain ⟨r, rfl⟩ := Nat.exists_eq_add_of_le h
  have hrest : readBytes (writeBytes m a s) (a + s.length) r = readBytes m (a + s.length) r :=
    readBytes_congr _ _ _ _ fun i hi _ => read_writeBytes_of_outside m a s i (.inr hi)
  rw [readBytes_add, readBytes_add, readBytes_writeBytes m a s hm, hrest,
    List.drop_left' (readBytes_length m a s.length)]

/-! ### Steps with nothing scheduled -/

/-- The host moves next, with this program: the engine is IDLE and nothing is scheduled (R402; log 4). -/
structure HostTurn (s : State) (program : List HostOp) : Prop where
  idle : s.fsm = .idle
  unscheduled : s.schedule = []
  program : s.hostProgram = program

theorem HostTurn.step {s : State} {program : List HostOp} (h : HostTurn s program) :
    Machine.step s = .next s.hostMove := by
  rw [step_eq_mover, State.mover_of_idle h.unscheduled h.idle, State.dispatched_of_nil h.unscheduled]

/-- With nothing scheduled a command in flight completes next (R404; log 4). -/
theorem step_of_busy_encode {s : State} {i : Instr} (hsched : s.schedule = []) (hbusy : s.fsm = .busy (encode i)) :
    step s = exec i s := by
  rw [step_eq_mover, State.mover_of_busy hsched hbusy, State.dispatched_of_nil hsched]
  simp only [engineMove, State.latchedWord, hbusy, decode_encode]

theorem run_succ_of_step {M : Host.Core} {s t : M.State} (k : Nat) (h : M.step s = .next t) :
    M.run (k + 1) s = M.run k t := by
  rw [Host.Core.run, h]

/-! ### The host's operations -/

/-- The host's write at a mapped offset while IDLE takes the operation from the program, writes the location and extends
the trace (R313, R316). -/
theorem HostTurn.step_writeAt {s : State} {off : Nat} {v : Word} {rest : List HostOp} {l : Location}
    (h : HostTurn s (writeAt off v :: rest)) (hl : accessLocation off 4 = some l) :
    Machine.step s = .next { (s.withProgram rest).locationWrite v l with
      busLog := ⟨.write (Config.mscBase + off) 4 v, .writeAck⟩ :: s.busLog } := by
  have hwindow := locate_lt off l ((accessLocation_eq_some_iff off 4 l).1 hl).2.2
  have hreply : (s.withProgram rest).busReply (.write (Config.mscBase + off) 4 v) = .writeAck := by
    rw [State.busReply_write _ hwindow, writeReply, hl]
  have heffect : (s.withProgram rest).busEffect (.write (Config.mscBase + off) 4 v) =
      (s.withProgram rest).locationWrite v l := by
    rw [State.busEffect_write _ hwindow, State.windowWrite_of_some _ hl,
      State.hostWrite_of_idle (s := s.withProgram rest) h.idle]
  rw [h.step, State.hostMove, h.program, ← heffect, ← hreply]
  rfl

theorem State.busyFlag_eq_false_iff (s : State) : s.busyFlag = false ↔ s.fsm = .idle := by
  cases h : s.fsm <;> simp [State.busyFlag, h]

/-- The host's round of `wait` reads STATUS, and ends the loop exactly while IDLE (R315). -/
theorem State.hostMove_pollIdle {s : State} {rest : List HostOp} (hprogram : s.hostProgram = .pollIdle :: rest) :
    s.hostMove = { s with
      hostProgram := if s.fsm = .idle then rest else s.hostProgram
      busLog := ⟨.read (Config.mscBase + Reg.status.offset) 4, .readData (s.regRead .status)⟩ :: s.busLog } := by
  have hreply (program : List HostOp) :
      (s.withProgram program).busReply statusPoll = .readData (s.regRead .status) := by
    rw [statusPoll, State.busReply_read _ (by decide), State.windowRead, accessLocation_offset]
    rfl
  have hnext : (if s.busyFlag then s.hostProgram else rest) = if s.fsm = .idle then rest else s.hostProgram := by
    simp only [← s.busyFlag_eq_false_iff]
    cases s.busyFlag <;> rfl
  rw [← hnext, ← hreply (if s.busyFlag then s.hostProgram else rest), State.hostMove, hprogram]
  rfl

/-- Bit 0 of STATUS is BUSY (R105). -/
theorem State.getLsbD_regRead_status (s : State) : (s.regRead .status).getLsbD 0 = s.busyFlag := by
  rw [State.regRead, BitVec.getLsbD_setWidth, State.status, BitVec.getLsbD_append]
  simp

/-! ### `run`: a command between the host's two operations -/

/-- The machine after the host has issued a word by its write to CMD (R403). -/
def State.withIssued (s : State) (w : Word) (rest : List HostOp) : State :=
  { s with
    fsm := .busy w, hostProgram := rest
    busLog := ⟨.write (Config.mscBase + Reg.cmd.offset) 4 w, .writeAck⟩ :: s.busLog }

theorem HostTurn.step_issue {s : State} {w : Word} {rest : List HostOp}
    (h : HostTurn s (writeAt Reg.cmd.offset w :: rest)) : Machine.step s = .next (s.withIssued w rest) :=
  h.step_writeAt (accessLocation_offset .cmd)

theorem HostTurn.step_pollIdle {s : State} {rest : List HostOp} (h : HostTurn s (.pollIdle :: rest)) :
    Machine.step s = .next { s with
      hostProgram := rest
      busLog := ⟨.read (Config.mscBase + Reg.status.offset) 4, .readData (s.regRead .status)⟩ :: s.busLog } := by
  rw [h.step, State.hostMove_pollIdle h.program, if_pos h.idle]

/-- A command leaves the agents' schedule and the host's program alone. -/
theorem CommandWrite.agents {i : Instr} {s t : State} (h : CommandWrite i s t) :
    t.schedule = s.schedule ∧ t.hostProgram = s.hostProgram := by
  cases h with
  | shared xS => exact ⟨s.setShared_schedule xS, s.setShared_hostProgram xS⟩
  | nothing | out | keyPair | dropKeyPair | privateKey | peerChecked | dropShared | zeroized => exact ⟨rfl, rfl⟩

/-- After a command's completion the host goes on with its program. -/
theorem Completes.hostTurn {i : Instr} {s t : State} (h : Completes i s t) (hsched : s.schedule = []) :
    HostTurn t s.hostProgram := by
  have hidle := h.fsm
  cases h with
  | mk err hregs hwrite =>
    obtain ⟨hschedule, hprogram⟩ := hwrite.agents
    cases hregs
    exact ⟨hidle, hschedule.trans hsched, hprogram⟩

/-! ### `load`: a buffer written word by word -/

/-- A word of `load`: the host's step writes the word's four bytes into the buffer. -/
theorem HostTurn.step_writeWord {s : State} {b : Buffer} {index : Nat} {v : Word} {rest : List HostOp}
    (h : HostTurn s (writeAt (b.base + index) v :: rest)) (hwritable : b.access ≠ .readOnly)
    (haligned : index % 4 = 0) (hindex : index < b.size) :
    ∃ t, Machine.step s = .next t ∧ HostTurn t rest ∧
      t.mem = Memory.writeBytes s.mem (b.base + index) (leBytes 4 v.toNat) := by
  have hl : accessLocation (b.base + index) 4 = some (.buf b index) := by
    obtain ⟨hbase, -⟩ := b.word_aligned
    rw [accessLocation_of_aligned (by omega), locate_of_holds ((b.holds_iff _).2 ⟨by omega, by omega⟩),
      Nat.add_sub_cancel_left]
  refine ⟨_, h.step_writeAt hl, ?_⟩
  rw [State.locationWrite, State.bufWordWrite_eq, if_neg hwritable]
  exact ⟨⟨h.idle, h.unscheduled, rfl⟩, rfl⟩

/-- The writes of `load` from a word of the buffer on put the string there, padded with zeros to whole words (R315). -/
theorem HostTurn.run_loadWords {b : Buffer} (hwritable : b.access ≠ .readOnly) {k index : Nat} {s : State}
    {bytes : ByteString} {rest : List HostOp} (h : HostTurn s (loadWords (b.base + index) k bytes ++ rest))
    (haligned : index % 4 = 0) (hfits : index + k * 4 ≤ b.size) (hlen : bytes.length ≤ k * 4) :
    ∃ t, Host.Core.run core k s = .next t ∧ HostTurn t rest ∧
      t.mem = Memory.writeBytes s.mem (b.base + index) (bytes ++ zeros (k * 4 - bytes.length)) := by
  induction k generalizing index s bytes with
  | zero =>
    obtain rfl : bytes = [] := List.eq_nil_of_length_eq_zero (by omega)
    exact ⟨s, rfl, h, rfl⟩
  | succ k ih =>
    obtain ⟨u, hstep, hturn, hmem⟩ := HostTurn.step_writeWord h hwritable haligned (by omega)
    have hword : (bytes.take 4).length ≤ 4 := List.length_take_le 4 bytes
    obtain ⟨t, hrun, hend, htmem⟩ := ih (index := index + 4) hturn (by omega) (by omega)
      (by rw [List.length_drop]; omega)
    refine ⟨t, (run_succ_of_step (M := core) k hstep).trans hrun, hend, ?_⟩
    have hplace : (bytes.take 4 ++ zeros (4 - (bytes.take 4).length)).length = 4 := by
      rw [List.length_append, zeros_length, Nat.add_sub_cancel' hword]
    rw [htmem, hmem, leBytes_loadWord hword, pad_words_succ, Memory.writeBytes_append _ _ _ (bytes.drop 4 ++ _), hplace]
    rfl

end Sys2Proof.Machine

namespace Sys2Proof.Proofs

open Sys2Proof.Machine

/-- Settles O54: the bytes padded to whole words are written over the buffer's start. -/
theorem loadLineFillsTheBuffer : Obligations.LoadLineFillsTheBuffer := by
  intro s b bytes rest hwf hidle hsched hwritable hlen hprogram
  obtain ⟨-, hsize⟩ := b.word_aligned
  have hfits : (bytes.length + 3) / 4 * 4 ≤ b.size := by omega
  obtain ⟨t, hrun, hend, hmem⟩ := HostTurn.run_loadWords (index := 0) hwritable ⟨hidle, hsched, hprogram⟩ rfl
    (by omega) (by omega)
  rw [Nat.add_zero] at hmem
  have hpadded : (bytes ++ zeros ((bytes.length + 3) / 4 * 4 - bytes.length)).length = (bytes.length + 3) / 4 * 4 := by
    rw [List.length_append, zeros_length]
    omega
  refine ⟨t, hrun, hend.program, hend.idle, ?_, fun a ha => ?_⟩
  · have hbuf := Memory.readBytes_writeBytes_start hwf b.base (hpadded.trans_le hfits)
    rwa [hpadded, ← hmem] at hbuf
  · have hout := (b.not_holds_iff a).1 ha
    rw [hmem, Memory.read_writeBytes_of_outside _ _ _ _ (by omega)]

/-- Settles O55: the CMD write, the completion and the poll, one step each. -/
theorem runLineCompletesTheCommand : Obligations.RunLineCompletesTheCommand := by
  intro s i rest hidle hsched hprogram
  have hturn : HostTurn s (writeAt Reg.cmd.offset (encode i) :: .pollIdle :: rest) := ⟨hidle, hsched, hprogram⟩
  obtain ⟨t, hexec, hcompletes⟩ := exec_completes i (s.withIssued (encode i) (.pollIdle :: rest))
  have hcompletion := (step_of_busy_encode (s := s.withIssued (encode i) (.pollIdle :: rest)) hsched rfl).trans hexec
  have hend : HostTurn t (.pollIdle :: rest) := hcompletes.hostTurn hsched
  exact ⟨t, hexec, (run_succ_of_step (M := core) 2 hturn.step_issue).trans
    ((run_succ_of_step (M := core) 1 hcompletion).trans (run_succ_of_step (M := core) 0 hend.step_pollIdle))⟩

/-- Settles O56. -/
theorem waitPollsUntilIdle : Obligations.WaitPollsUntilIdle := by
  intro s rest hprogram
  rw [State.hostMove_pollIdle hprogram, State.getLsbD_regRead_status, State.busyFlag_eq_false_iff]
  exact ⟨rfl, rfl, Iff.rfl⟩

end Sys2Proof.Proofs
end

section
/-! The steps of the three agents: which one moves, that every step answers a next state and uses up one entry of the
schedule, and what the completion of an illegal word and of NOP, ZEROIZE and the other commands leaves (R401 to R407,
R412, R416, R417). -/

namespace Sys2Proof.Machine

/-! ### The engine's move by the word it has latched -/

theorem engineMove_of_decode {s : State} {w : Word} {i : Instr} (hbusy : s.fsm = .busy w) (hdecode : decode w = .ok i) :
    engineMove s = exec i s := by
  simp only [engineMove, State.latchedWord, hbusy, hdecode]

theorem engineMove_of_decode_error {s : State} {w : Word} {reason : Illegal} (hbusy : s.fsm = .busy w)
    (hdecode : decode w = .error reason) : engineMove s = .next (s.completeIllegal w) := by
  simp only [engineMove, State.latchedWord, hbusy, hdecode]

/-- A word that fails a check of R308 is completed as an illegal one: the decoder accepts legal words only. -/
theorem engineMove_of_illegal {s : State} {w : Word} (hbusy : s.fsm = .busy w)
    (hillegal : (fieldsOf w).wellFormed = false) : engineMove s = .next (s.completeIllegal w) := by
  cases hdecode : decode w with
  | ok i => exact absurd ((Proofs.decoderAcceptsExactlyTheLegalWords w).1 ⟨i, hdecode⟩) (by simp [hillegal])
  | error reason => exact engineMove_of_decode_error hbusy hdecode

theorem Completes.schedule {i : Instr} {s t : State} (h : Completes i s t) : t.schedule = s.schedule := by
  cases h with
  | mk err hregs hwrite =>
    cases hregs
    exact hwrite.agents.1

/-- The engine's move answers a next state whatever it has latched, and takes nothing from the schedule. -/
theorem exists_engineMove (s : State) : ∃ t, engineMove s = .next t ∧ t.schedule = s.schedule := by
  cases hfsm : s.fsm with
  | idle => exact ⟨s, engineMove_of_idle hfsm, rfl⟩
  | busy w =>
    cases hdecode : decode w with
    | error reason => exact ⟨_, engineMove_of_decode_error hfsm hdecode, rfl⟩
    | ok i =>
      obtain ⟨t, hexec, hcompletes⟩ := exec_completes i s
      exact ⟨t, (engineMove_of_decode hfsm hdecode).trans hexec, hcompletes.schedule⟩

/-! ### The host's move and the schedule -/

theorem State.regWrite_schedule (s : State) (v : Word) (r : Reg) : (s.regWrite v r).schedule = s.schedule := by
  cases r <;> rfl

theorem State.bufWordWrite_schedule (s : State) (v : Word) (b : Buffer) (index : Nat) :
    (s.bufWordWrite v b index).schedule = s.schedule := by
  rw [bufWordWrite_eq]
  split <;> rfl

theorem State.hostWrite_schedule (s : State) (v : Word) (l : Location) : (s.hostWrite v l).schedule = s.schedule := by
  rcases s.hostWrite_cases v l with h | h <;> rw [h]
  cases l with
  | reg r => exact s.regWrite_schedule v r
  | buf b index => exact s.bufWordWrite_schedule v b index

theorem State.hostMove_schedule (s : State) : s.hostMove.schedule = s.schedule := by
  obtain ⟨program, log, u, hmove, rfl | ⟨addr, v, off, l, -, -, -, rfl⟩⟩ := s.hostMove_cases
  · rw [hmove]
    rfl
  · rw [hmove]
    exact (s.withProgram program).hostWrite_schedule v l

/-! ### Every step answers, and the schedule runs out -/

theorem State.dispatched_of_cons {s : State} {agent : Agent} {rest : List Agent} (h : s.schedule = agent :: rest) :
    s.dispatched = { s with schedule := rest } := by
  rw [State.dispatched, h, List.tail_cons]

/-- The move of an agent, with the schedule's entry for it already taken. -/
def State.move (s : State) : Agent → Host.Outcome State Fault Refusal
  | .engine => engineMove s
  | .host => .next s.hostMove
  | .platform => .next s.platformReset

theorem step_eq_move (s : State) : step s = s.dispatched.move s.mover := by
  rw [step_eq_mover]
  cases s.mover <;> rfl

/-- The schedule's head moves, and is used up (R402, R1001). -/
theorem step_of_scheduled {s : State} {agent : Agent} {rest : List Agent} (h : s.schedule = agent :: rest) :
    step s = ({ s with schedule := rest } : State).move agent := by
  rw [step_eq_move, State.mover_of_scheduled h, State.dispatched_of_cons h]

/-- With nothing scheduled a BUSY engine moves (R402; log 4). -/
theorem step_of_busy {s : State} {w : Word} (hsched : s.schedule = []) (hbusy : s.fsm = .busy w) :
    step s = engineMove s := by
  rw [step_eq_move, State.mover_of_busy hsched hbusy, State.dispatched_of_nil hsched, State.move]

/-- Every step answers a next state and uses up the schedule's head. -/
theorem exists_step (s : State) : ∃ t, step s = .next t ∧ t.schedule = s.schedule.tail := by
  rw [step_eq_move]
  cases s.mover with
  | engine => exact exists_engineMove s.dispatched
  | host => exact ⟨_, rfl, s.dispatched.hostMove_schedule⟩
  | platform => exact ⟨_, rfl, rfl⟩

/-- After as many steps as the schedule is long nothing is scheduled. -/
theorem run_schedule (n : Nat) (s : State) (hlen : s.schedule.length = n) :
    ∃ t : State, Host.Core.run core n s = .next t ∧ t.schedule = [] := by
  induction n generalizing s with
  | zero => exact ⟨s, rfl, List.eq_nil_of_length_eq_zero hlen⟩
  | succ n ih =>
    obtain ⟨u, hstep, hsched⟩ := exists_step s
    obtain ⟨t, hrun, hend⟩ := ih u (by rw [hsched, List.length_tail, hlen, Nat.add_sub_cancel])
    exact ⟨t, (run_succ_of_step (M := core) n hstep).trans hrun, hend⟩

theorem run_add {M : Host.Core} {m : Nat} {s t : M.State} (k : Nat) (h : M.run m s = .next t) :
    M.run (m + k) s = M.run k t := by
  induction m generalizing s with
  | zero =>
    cases h
    rw [Nat.zero_add]
  | succ m ih =>
    rw [Nat.succ_add, Host.Core.run]
    rw [Host.Core.run] at h
    cases hstep : M.step s with
    | next u =>
      rw [hstep] at h
      exact ih h
    | fault r => simp [hstep] at h
    | refused r => simp [hstep] at h

/-! ### What a command leaves unchanged -/

theorem irqStatAfter_eq (old : BitVec 3) (err : ErrCode) :
    irqStatAfter old err = old ||| (if err = .ok then 1 else 3) := by
  rw [irqStatAfter, BitVec.or_assoc]
  split <;> rfl

/-- No command writes CTRL, IRQ_EN or the host's trace. -/
theorem CommandWrite.controls {i : Instr} {s t : State} (h : CommandWrite i s t) :
    t.ctrl = s.ctrl ∧ t.irqEn = s.irqEn ∧ t.busLog = s.busLog := by
  cases h with
  | shared xS => exact ⟨s.setShared_ctrl xS, s.setShared_irqEn xS, s.setShared_busLog xS⟩
  | nothing | out | keyPair | dropKeyPair | privateKey | peerChecked | dropShared | zeroized => exact ⟨rfl, rfl, rfl⟩

end Sys2Proof.Machine

namespace Sys2Proof.Proofs

open Sys2Proof.Machine

/-- Settles O4: the completion's own writes, with the code of R903. -/
theorem illegalWordChangesOnlyTheCompletion : Obligations.IllegalWordChangesOnlyTheCompletion := by
  intro s w hbusy hillegal
  rw [engineMove_of_illegal hbusy hillegal]
  exact congrArg _ (s.finish_ended (w.extractLsb' 0 8) .illegalCmd)

/-- Settles O5: under both schedules the step is the engine's move. -/
theorem stepRunsTheDecodedInstruction : Obligations.StepRunsTheDecodedInstruction := by
  intro s w i hbusy hdecode
  have hmove := engineMove_of_decode hbusy hdecode
  exact ⟨hmove, fun hsched => (step_of_busy hsched hbusy).trans hmove, fun rest hsched =>
    (step_of_scheduled hsched).trans (engineMove_of_decode (s := { s with schedule := rest }) hbusy hdecode)⟩

/-- Settles O6: the schedule's head moves where there is one, else the engine if BUSY and the host if IDLE. -/
theorem stepMovesTheScheduledAgent : Obligations.StepMovesTheScheduledAgent := by
  intro s
  have hhost (hsched : s.schedule = []) (hidle : s.fsm = .idle) : step s = .next s.hostMove :=
    HostTurn.step ⟨hidle, hsched, rfl⟩
  refine ⟨engineMove_of_idle, fun rest h => step_of_scheduled h, fun rest h => step_of_scheduled h,
    fun rest h => step_of_scheduled h, fun w hsched hbusy => step_of_busy hsched hbusy, hhost,
    fun hsched hidle hprogram => ?_⟩
  rw [hhost hsched hidle, State.hostMove, hprogram]

/-- Settles O8: of the fields named, a command's own writes touch none, and `finish` writes RESULT, IRQ_STAT and FSM. -/
theorem everyCommandEndsInOneCompletion : Obligations.EveryCommandEndsInOneCompletion := by
  intro i s
  obtain ⟨t, hexec, hcompletes⟩ := exec_completes i s
  cases hcompletes with
  | mk err hregs hwrite =>
    obtain ⟨hctrl, hirqEn, hlog⟩ := hwrite.controls
    obtain ⟨hsched, hprogram⟩ := hwrite.agents
    have hirqStat := hwrite.irqStat
    cases hregs
    exact ⟨_, err, hexec, rfl, by rw [State.finish_irqStat, hirqStat, irqStatAfter_eq], rfl, hctrl, hirqEn, hsched,
      hprogram, hlog⟩

/-- Settles O9: the schedule runs out after as many steps as it is long, and a command still in flight then completes
in the next step. -/
theorem engineBecomesIdle : Obligations.EngineBecomesIdle := by
  intro s
  obtain ⟨t, hrun, hsched⟩ := run_schedule _ s rfl
  cases hfsm : t.fsm with
  | idle => exact ⟨_, Nat.le_succ _, t, hrun, hfsm⟩
  | busy w =>
    obtain ⟨u, hmove, -⟩ := exists_engineMove t
    have hstep : step t = .next u := (step_of_busy hsched hfsm).trans hmove
    exact ⟨_, Nat.le_refl _, u, (run_add (M := core) 1 hrun).trans (run_succ_of_step (M := core) 0 hstep),
      engineMove_fsm hmove⟩

/-- Settles O15: NOP is a completion and nothing before it. -/
theorem nopOnlyCompletes : Obligations.NopOnlyCompletes := fun s =>
  congrArg Host.Outcome.next (s.finish_ended (opcode .nop) .ok)

/-- Settles O16: a byte in no buffer is outside every range that is cleared. -/
theorem zeroizeClearsBuffersAndSession : Obligations.ZeroizeClearsBuffersAndSession := by
  intro s
  refine ⟨_, rfl, fun b => ?_, fun a houtside => ?_, s.zeroized.finish_ended (opcode .zeroize) .ok⟩
  · rw [State.buf_finish, State.buf_zeroized, State.buf_clearBuffers]
  · rw [State.finish_mem, State.zeroized_mem, State.read_clearBuffers, if_neg]
    rw [Buffer.any_holds_iff]
    rintro ⟨b, hb⟩
    simp [houtside b] at hb

/-- Settles O50: CMD's location is writable while IDLE only. -/
theorem cmdWriteIssuesTheWord : Obligations.CmdWriteIssuesTheWord := by
  intro s w
  have hcmd : s.windowWrite 0x010 4 w = s.hostWrite w (.reg .cmd) := s.windowWrite_of_some (accessLocation_offset .cmd) w
  rw [hcmd]
  exact ⟨fun hidle => s.hostWrite_of_idle hidle w _, fun w' hbusy => State.hostWrite_of_busy hbusy w rfl⟩

end Sys2Proof.Proofs
end

section
/-! The two ends of an OUT writer, each with all that it writes (R409, R410), and the commands that have no part in the
entropy source (R413). -/

namespace Sys2Proof.Machine

/-! ### The entropy source's fields -/

/-- The machine with other answers waiting in the entropy source (R923; log 1). -/
def State.withEntropy (s : State) (answers : List (Option Nat)) (n : Nat) : State :=
  { s with entropy := answers, draws := n }

/-- Taking the pad changes nothing but the entropy source (R808). -/
theorem State.afterPad_eq_withEntropy (s : State) (padsrc : Bool) :
    s.afterPad padsrc = s.withEntropy (s.afterPad padsrc).entropy (s.afterPad padsrc).draws := by
  cases padsrc <;> rfl

/-! ### How an OUT writer ends -/

/-- `t` is `s` after an OUT writer: it succeeds with a result, or it fails with nothing written before but the
answers it took from the entropy source. -/
inductive OutEnd (i : Instr) (s : State) : State → Prop
  | success (s' : State) (r : ByteString) : OutEnd i s (s'.succeedOut (opcode i) r)
  | failure (answers : List (Option Nat)) (n : Nat) (err : ErrCode) (h : err ≠ .ok) :
      OutEnd i s ((s.withEntropy answers n).failOut (opcode i) err)

/-- A check that fails before any request to the entropy source, or the rest of the command. -/
theorem OutEnd.check {i : Instr} {s t : State} {c : Prop} [Decidable c] {err : ErrCode} (herr : err ≠ .ok)
    (h : OutEnd i s t) : OutEnd i s (if c then s.failOut (opcode i) err else t) := by
  split
  · exact .failure s.entropy s.draws err herr
  · exact h

theorem State.ccmDecWith_outEnd (s : State) (answer : Option ByteString) : OutEnd .ccmDec s (s.ccmDecWith answer) := by
  cases answer with
  | none => exact .failure s.entropy s.draws .authFail nofun
  | some p => exact .success s p

theorem State.frameEncWith_outEnd (s : State) (padsrc : Bool) (answer : Option ByteString) :
    OutEnd (.frameEnc padsrc) s ((s.afterPad padsrc).frameEncWith padsrc answer) := by
  cases answer with
  | none =>
    rw [s.afterPad_eq_withEntropy padsrc]
    exact .failure _ _ .entropyErr nofun
  | some pad => exact .success _ _

theorem State.frameDecWith_outEnd (s : State) (f : ByteString) (answer : Option ByteString) :
    OutEnd .frameDec s (s.frameDecWith f answer) := by
  cases answer with
  | none => exact .failure s.entropy s.draws .authFail nofun
  | some p => exact .success _ _

/-- Every OUT writer ends in one of the two ways: the checks of R409's commands, one by one. -/
theorem exec_outEnd {i : Instr} (hi : outWriter i = true) (s : State) : ∃ t, exec i s = .next t ∧ OutEnd i s t := by
  cases i with
  | hkdf saltp ikmsrc => exact ⟨_, rfl, .check nofun (.check nofun (.success s _))⟩
  | hmac | ccmEnc | devidEnc => exact ⟨_, rfl, .check nofun (.success s _)⟩
  | ccmDec => exact ⟨_, rfl, .check nofun (s.ccmDecWith_outEnd _)⟩
  | frameEnc padsrc => exact ⟨_, rfl, .check nofun (.check nofun (s.frameEncWith_outEnd padsrc _))⟩
  | frameDec =>
    exact ⟨_, rfl, .check nofun (.check nofun (.check nofun (.check nofun (s.frameDecWith_outEnd _ _))))⟩
  | nop | zeroize | ecKeygen | ecImportPriv | ecExportPriv | ecImportPub | ecAgree | crc16 =>
    exact absurd hi Bool.false_ne_true

theorem outEnd_of_exec {i : Instr} {s t : State} (hi : outWriter i = true) (h : exec i s = .next t) : OutEnd i s t := by
  obtain ⟨t', ht', hend⟩ := exec_outEnd hi s
  cases ht'.symm.trans h
  exact hend

theorem State.errCode_succeedOut (s : State) (op : BitVec 8) (r : ByteString) : (s.succeedOut op r).errCode = 0 :=
  (s.setOut r).errCode_finish op .ok

/-! ### Checks, operands and writes with other answers in the entropy source -/

/-- A check that other answers do not touch takes the same branch with them. -/
theorem check_withEntropy {c : Prop} [Decidable c] {x y x' y' : State} {answers : List (Option Nat)} {n : Nat}
    (hx : x' = x.withEntropy answers n) (hy : y' = y.withEntropy answers n) :
    (if c then x' else y') = (if c then x else y).withEntropy answers n := by
  split
  · exact hx
  · exact hy

section

variable (s : State) (answers : List (Option Nat)) (n : Nat)

@[simp] theorem State.buf_withEntropy (b : Buffer) : (s.withEntropy answers n).buf b = s.buf b := rfl
@[simp] theorem State.aadOperand_withEntropy : (s.withEntropy answers n).aadOperand = s.aadOperand := rfl
@[simp] theorem State.inOperand_withEntropy : (s.withEntropy answers n).inOperand = s.inOperand := rfl
@[simp] theorem State.saltOperand_withEntropy : (s.withEntropy answers n).saltOperand = s.saltOperand := rfl
@[simp] theorem State.privOperand_withEntropy : (s.withEntropy answers n).privOperand = s.privOperand := rfl
@[simp] theorem State.ivBytes_withEntropy : (s.withEntropy answers n).ivBytes = s.ivBytes := rfl
@[simp] theorem State.padBytes_withEntropy : (s.withEntropy answers n).padBytes = s.padBytes := rfl
@[simp] theorem State.receiveCounter_withEntropy (f : ByteString) :
    (s.withEntropy answers n).receiveCounter f = s.receiveCounter f := rfl
@[simp] theorem State.hkdfOkm_withEntropy (saltp ikmsrc : Bool) :
    (s.withEntropy answers n).hkdfOkm saltp ikmsrc = s.hkdfOkm saltp ikmsrc := rfl
@[simp] theorem State.d_withEntropy : (s.withEntropy answers n).d = s.d := rfl
@[simp] theorem State.counter_withEntropy : (s.withEntropy answers n).counter = s.counter := rfl

@[simp] theorem State.finish_withEntropy (op : BitVec 8) (err : ErrCode) :
    (s.withEntropy answers n).finish op err = (s.finish op err).withEntropy answers n := rfl
@[simp] theorem State.succeedOut_withEntropy (op : BitVec 8) (r : ByteString) :
    (s.withEntropy answers n).succeedOut op r = (s.succeedOut op r).withEntropy answers n := rfl
@[simp] theorem State.setKeyPair_withEntropy (d : Nat) :
    (s.withEntropy answers n).setKeyPair d = (s.setKeyPair d).withEntropy answers n := rfl
@[simp] theorem State.exportKey_withEntropy :
    (s.withEntropy answers n).exportKey = s.exportKey.withEntropy answers n := rfl
@[simp] theorem State.setShared_withEntropy (xS : Nat) :
    (s.withEntropy answers n).setShared xS = (s.setShared xS).withEntropy answers n := by
  simp only [State.setShared, State.fillBuf, State.withEntropy]
@[simp] theorem State.dropShared_withEntropy :
    (s.withEntropy answers n).dropShared = s.dropShared.withEntropy answers n := rfl

@[simp] theorem State.bumpCounter_withEntropy :
    (s.withEntropy answers n).bumpCounter = s.bumpCounter.withEntropy answers n :=
  check_withEntropy rfl rfl

/-! ### Commands that do not ask the entropy source -/

@[simp] theorem State.ccmDecWith_withEntropy (p : Option ByteString) :
    (s.withEntropy answers n).ccmDecWith p = (s.ccmDecWith p).withEntropy answers n := by
  cases p <;> rfl

@[simp] theorem State.frameDecWith_withEntropy (f : ByteString) (p : Option ByteString) :
    (s.withEntropy answers n).frameDecWith f p = (s.frameDecWith f p).withEntropy answers n := by
  cases p <;> rfl

@[simp] theorem State.agreeWith_withEntropy (q : Point) :
    (s.withEntropy answers n).agreeWith q = (s.agreeWith q).withEntropy answers n := by
  cases q <;> simp [State.agreeWith]

/-- With PADSRC = 1 the pad is a register, and FRAME_ENC has no part in the entropy source (R808). -/
theorem State.frameEncWith_padRegister_withEntropy :
    ((s.withEntropy answers n).afterPad true).frameEncWith true ((s.withEntropy answers n).framePad true) =
      ((s.afterPad true).frameEncWith true (s.framePad true)).withEntropy answers n := by
  simp [State.afterPad, State.framePad, State.frameEncWith]

end

/-- Other answers in the entropy source are found there again after the command, all else being the same: none of the
checks, operands and writes of these commands has a part in it (R413). -/
theorem exec_withEntropy {i : Instr} (hi : drawsEntropy i = false) (s : State) :
    ∃ t, exec i s = .next t ∧ ∀ answers n, exec i (s.withEntropy answers n) = .next (t.withEntropy answers n) := by
  cases i with
  | nop | zeroize => exact ⟨_, rfl, fun _ _ => rfl⟩
  | ecImportPriv =>
    refine ⟨_, rfl, fun _ _ => congrArg Host.Outcome.next ?_⟩
    exact check_withEntropy rfl (check_withEntropy (by simp) rfl)
  | ecExportPriv | ecAgree =>
    refine ⟨_, rfl, fun _ _ => congrArg Host.Outcome.next ?_⟩
    exact check_withEntropy (by simp) rfl
  | ecImportPub | crc16 =>
    refine ⟨_, rfl, fun _ _ => congrArg Host.Outcome.next ?_⟩
    exact check_withEntropy rfl rfl
  | hkdf saltp ikmsrc =>
    refine ⟨_, rfl, fun _ _ => congrArg Host.Outcome.next ?_⟩
    exact check_withEntropy rfl (check_withEntropy rfl (by simp))
  | hmac | ccmEnc | ccmDec | devidEnc =>
    refine ⟨_, rfl, fun _ _ => congrArg Host.Outcome.next ?_⟩
    exact check_withEntropy rfl (by simp)
  | frameDec =>
    refine ⟨_, rfl, fun _ _ => congrArg Host.Outcome.next ?_⟩
    exact check_withEntropy rfl (check_withEntropy rfl (check_withEntropy rfl (check_withEntropy rfl (by simp))))
  | frameEnc padsrc =>
    cases padsrc with
    | true =>
      refine ⟨_, rfl, fun _ _ => congrArg Host.Outcome.next ?_⟩
      exact check_withEntropy rfl (check_withEntropy rfl (s.frameEncWith_padRegister_withEntropy _ _))
    | false => exact absurd hi.symm Bool.false_ne_true
  | ecKeygen => exact absurd hi.symm Bool.false_ne_true

end Sys2Proof.Machine

namespace Sys2Proof.Proofs

open Sys2Proof.Machine

/-- Settles O10: a code other than 0 is reported at the failing end only, whose writes `failOut_spec` lists. -/
theorem failedOutWriterShowsNoResult : Obligations.FailedOutWriterShowsNoResult := by
  intro i s t hi hexec hcode
  cases outEnd_of_exec hi hexec with
  | success s' r => exact absurd (s'.errCode_succeedOut _ r) hcode
  | failure answers n err herr =>
    have hspec := (s.withEntropy answers n).failOut_spec (opcode i) err herr
    exact ⟨⟨hspec.filled.bytes, hspec.filled.frame⟩, rfl⟩

/-- Settles O11: `exec_withEntropy` for other answers is the second claim; for the command's own answers, which are no
exchange, it says that they are left as they were. -/
theorem onlyTwoCommandsDependOnEntropy : Obligations.OnlyTwoCommandsDependOnEntropy := by
  intro i s t answers n hi hexec
  obtain ⟨t', ht', hblind⟩ := exec_withEntropy hi s
  cases ht'.symm.trans hexec
  have hsame : t = t.withEntropy s.entropy s.draws :=
    Host.Outcome.next.inj (hexec.symm.trans (hblind s.entropy s.draws))
  exact ⟨congrArg (·.entropy) hsame, congrArg (·.draws) hsame, hblind answers n⟩

end Sys2Proof.Proofs
end

section
/-! The arithmetic of P-256: the field's operations as those of the integers modulo `p`, the curve equation, the group
law case by case, the scalar product bit by bit, and the raw encoding of a point (R501 to R507). -/

namespace Sys2Proof.Machine

/-! ### Field arithmetic (R502) -/

theorem fAdd_lt (u v : Nat) : fAdd u v < fieldPrime := Nat.mod_lt _ (by decide)

theorem fSub_lt (u v : Nat) : fSub u v < fieldPrime := Nat.mod_lt _ (by decide)

theorem fMul_lt (u v : Nat) : fMul u v < fieldPrime := Nat.mod_lt _ (by decide)

theorem natCast_fAdd (u v : Nat) : (fAdd u v : ZMod fieldPrime) = u + v := by simp [fAdd]

theorem natCast_fMul (u v : Nat) : (fMul u v : ZMod fieldPrime) = u * v := by simp [fMul]

/-- The complement `p - v mod p`, with which the subtraction adds, stands for `-v`. -/
theorem natCast_fSub (u v : Nat) : (fSub u v : ZMod fieldPrime) = u - v := by
  have hle : v % fieldPrime ≤ fieldPrime := (Nat.mod_lt v (by decide)).le
  rw [fSub, ZMod.natCast_mod, Nat.cast_add, Nat.cast_sub hle, ZMod.natCast_self, ZMod.natCast_mod]
  ring

/-- The squaring loop computes the power, for an exponent that its fuel covers. -/
theorem fPow_eq {fuel e : Nat} (z : Nat) (he : e < 2 ^ fuel) : fPow fuel z e = z ^ e % fieldPrime := by
  induction fuel generalizing z e with
  | zero =>
    obtain rfl : e = 0 := by simpa using he
    rfl
  | succ fuel ih =>
    have hhalf : fPow fuel (fMul z z) (e / 2) = z ^ (2 * (e / 2)) % fieldPrime := by
      rw [ih _ (by omega), fMul, ← Nat.pow_mod, ← pow_two, ← pow_mul]
    rw [fPow, hhalf]
    split
    next hodd =>
      have hexp : e = 2 * (e / 2) + 1 := by omega
      rw [fMul, Nat.mul_mod_mod, ← pow_succ', ← hexp]
    next heven => rw [show 2 * (e / 2) = e by omega]

theorem fInv_eq (z : Nat) : fInv z = z ^ (fieldPrime - 2) % fieldPrime := fPow_eq z (by decide)

theorem natCast_fDiv (u z : Nat) : (fDiv u z : ZMod fieldPrime) = u * z ^ (fieldPrime - 2) := by
  rw [fDiv, natCast_fMul, fInv_eq, ZMod.natCast_mod, Nat.cast_pow]

/-! ### The curve equation (R503, R507) -/

/-- Numbers below `p` are equal if they are equal modulo `p`. -/
theorem eq_iff_natCast_eq {u v : Nat} (hu : u < fieldPrime) (hv : v < fieldPrime) :
    u = v ↔ (u : ZMod fieldPrime) = v := by
  rw [ZMod.natCast_eq_natCast_iff', Nat.mod_eq_of_lt hu, Nat.mod_eq_of_lt hv]

theorem onCurve_iff (x y : Nat) :
    onCurve x y = true ↔ y ^ 2 % fieldPrime = (x ^ 3 + curveA * x + curveB) % fieldPrime := by
  rw [onCurve, beq_iff_eq, eq_iff_natCast_eq (fMul_lt _ _) (fAdd_lt _ _), ← ZMod.natCast_eq_natCast_iff']
  simp only [natCast_fAdd, natCast_fMul, Nat.cast_add, Nat.cast_mul, Nat.cast_pow]
  ring_nf

theorem validPub_iff (s : ByteString) : validPub s = true ↔
    rawX s < fieldPrime ∧ rawY s < fieldPrime ∧
      rawY s ^ 2 % fieldPrime = (rawX s ^ 3 + curveA * rawX s + curveB) % fieldPrime := by
  rw [validPub, Bool.and_eq_true, Bool.and_eq_true, decide_eq_true_eq, decide_eq_true_eq, onCurve_iff, and_assoc]

/-! ### The group law (R504) -/

/-- The slope of the line that the sum of two points is taken with: the tangent's for equal points, else the chord's. -/
def lineSlope (x1 y1 x2 y2 : Nat) : Nat :=
  if x1 = x2 ∧ y1 = y2 then fDiv (fAdd (fMul 3 (fMul x1 x1)) curveA) (fMul 2 y1)
  else fDiv (fSub y2 y1) (fSub x2 x1)

theorem natCast_lineSlope (x1 y1 x2 y2 : Nat) :
    (lineSlope x1 y1 x2 y2 : ZMod fieldPrime) =
      if x1 = x2 ∧ y1 = y2 then
        (3 * (x1 : ZMod fieldPrime) ^ 2 + (curveA : ZMod fieldPrime)) * (2 * (y1 : ZMod fieldPrime)) ^ (fieldPrime - 2)
      else
        ((y2 : ZMod fieldPrime) - (y1 : ZMod fieldPrime)) *
          ((x2 : ZMod fieldPrime) - (x1 : ZMod fieldPrime)) ^ (fieldPrime - 2) := by
  unfold lineSlope
  split
  · simp only [natCast_fDiv, natCast_fAdd, natCast_fMul, Nat.cast_ofNat, pow_two]
  · simp only [natCast_fDiv, natCast_fSub]

@[simp] theorem pointAdd_infinity_left (q : Point) : pointAdd .infinity q = q := rfl

@[simp] theorem pointAdd_infinity_right (q : Point) : pointAdd q .infinity = q := by cases q <;> rfl

theorem pointAdd_of_opposite {x1 y1 x2 y2 : Nat} (h : x1 = x2 ∧ (y1 + y2) % fieldPrime = 0) :
    pointAdd (.affine x1 y1) (.affine x2 y2) = .infinity := if_pos h

theorem pointAdd_of_not_opposite {x1 y1 x2 y2 : Nat} (h : ¬ (x1 = x2 ∧ (y1 + y2) % fieldPrime = 0)) :
    pointAdd (.affine x1 y1) (.affine x2 y2) = chordPoint (lineSlope x1 y1 x2 y2) x1 y1 x2 := by
  have hsum : pointAdd (.affine x1 y1) (.affine x2 y2) = _ := if_neg h
  rw [hsum, lineSlope]
  split
  · rfl
  · rfl

/-- The third point of a line has reduced coordinates, which meet the two equations of R504. -/
theorem exists_chordPoint_eq (lam x1 y1 x2 : Nat) :
    ∃ x3 y3 : Nat, chordPoint lam x1 y1 x2 = .affine x3 y3 ∧ x3 < fieldPrime ∧ y3 < fieldPrime ∧
      (x3 : ZMod fieldPrime) = (lam : ZMod fieldPrime) ^ 2 - x1 - x2 ∧
      (y3 : ZMod fieldPrime) = lam * ((x1 : ZMod fieldPrime) - x3) - y1 := by
  refine ⟨_, _, rfl, fSub_lt _ _, fSub_lt _ _, ?_, ?_⟩
  · rw [natCast_fSub, natCast_fSub, natCast_fMul, pow_two]
  · rw [natCast_fSub, natCast_fMul, natCast_fSub]

/-! ### The scalar product (R505) -/

@[simp] theorem pointMulBits_zero (fuel : Nat) (q : Point) : pointMulBits fuel 0 q = .infinity := by
  cases fuel <;> rfl

/-- One round of the loop: the half's product is doubled, and the point added for an odd scalar. For the scalar 0 the
loop stops with `O`, which is the double of `O`. -/
theorem pointMulBits_succ (fuel k : Nat) (q : Point) : pointMulBits (fuel + 1) k q =
    if k % 2 = 1 then
      pointAdd (pointAdd (pointMulBits fuel (k / 2) q) (pointMulBits fuel (k / 2) q)) q
    else pointAdd (pointMulBits fuel (k / 2) q) (pointMulBits fuel (k / 2) q) := by
  rw [pointMulBits]
  split
  next hzero => simp [hzero]
  next => rfl

/-- Fuel beyond the scalar's width changes nothing. -/
theorem pointMulBits_succ_fuel {fuel k : Nat} (q : Point) (h : k < 2 ^ fuel) :
    pointMulBits (fuel + 1) k q = pointMulBits fuel k q := by
  induction fuel generalizing k with
  | zero =>
    obtain rfl : k = 0 := by simpa using h
    simp
  | succ fuel ih => rw [pointMulBits_succ (fuel + 1), ih (by omega), ← pointMulBits_succ fuel]

theorem pointMul_zero (q : Point) : pointMul 0 q = .infinity := pointMulBits_zero 256 q

theorem pointMul_eq_of_lt {k : Nat} (q : Point) (h : k < 2 ^ 255) : pointMul k q = pointMulBits 255 k q :=
  pointMulBits_succ_fuel q h

theorem pointMul_two_mul {k : Nat} (q : Point) (h : k < 2 ^ 255) :
    pointMul (2 * k) q = pointAdd (pointMul k q) (pointMul k q) := by
  rw [pointMul_eq_of_lt q h, pointMul, pointMulBits_succ 255, if_neg (by omega), Nat.mul_div_cancel_left k two_pos]

theorem pointMul_two_mul_add_one {k : Nat} (q : Point) (h : k < 2 ^ 255) :
    pointMul (2 * k + 1) q = pointAdd (pointAdd (pointMul k q) (pointMul k q)) q := by
  rw [pointMul_eq_of_lt q h, pointMul, pointMulBits_succ 255, if_pos (by omega), show (2 * k + 1) / 2 = k by omega]

/-! ### The raw encoding (R506) -/

theorem intBE_beBytes_of_lt {k v : Nat} (h : v < 256 ^ k) : intBE (beBytes k v) = v := by
  rw [intBE_beBytes, Nat.mod_eq_of_lt h]

theorem rawX_rawPublicKey {x : Nat} (y : Nat) (h : x < 2 ^ 256) : rawX (rawPublicKey (.affine x y)) = x := by
  have hslice : slice (rawPublicKey (.affine x y)) 0 32 = beBytes 32 x := by simp [slice, rawPublicKey]
  rw [rawX, hslice, intBE_beBytes_of_lt (h.trans_eq (by norm_num))]

theorem rawY_rawPublicKey (x : Nat) {y : Nat} (h : y < 2 ^ 256) : rawY (rawPublicKey (.affine x y)) = y := by
  have hslice : slice (rawPublicKey (.affine x y)) 32 64 = beBytes 32 y := by
    simp [slice, rawPublicKey, List.take_of_length_le]
  rw [rawY, hslice, intBE_beBytes_of_lt (h.trans_eq (by norm_num))]

/-- The zero string decodes to `(0, 0)`, which is not on the curve since `b` is not 0. -/
theorem validPub_zeros : validPub (zeros 64) = false := by
  decide

end Sys2Proof.Machine

namespace Sys2Proof.Proofs

open Sys2Proof.Machine

/-- Settles O26. -/
theorem fieldInverseIsThePower : Obligations.FieldInverseIsThePower := fInv_eq

/-- Settles O24. -/
theorem validPubIsTheCurveEquation : Obligations.ValidPubIsTheCurveEquation := ⟨validPub_iff, validPub_zeros⟩

/-- Settles O27: the line's slope and its third point, each by its equation modulo `p`; one round of the loop for the
scalar product, with the fuel of the half as good as the whole. -/
theorem scalarProductDoublesAndAdds : Obligations.ScalarProductDoublesAndAdds := by
  refine ⟨fun q => ⟨pointAdd_infinity_left q, pointAdd_infinity_right q⟩, fun x1 y1 x2 y2 => ?_, fun k q hk =>
    ⟨pointMul_zero q, pointMul_two_mul q hk, pointMul_two_mul_add_one q hk⟩⟩
  split
  next hopposite => exact pointAdd_of_opposite hopposite
  next hline =>
    obtain ⟨x3, y3, hpoint, hx3, hy3, hx, hy⟩ := exists_chordPoint_eq (lineSlope x1 y1 x2 y2) x1 y1 x2
    exact ⟨_, x3, y3, (pointAdd_of_not_opposite hline).trans hpoint, hx3, hy3, natCast_lineSlope x1 y1 x2 y2, hx, hy⟩

/-- Settles O28. -/
theorem rawPublicKeyRoundTrips : Obligations.RawPublicKeyRoundTrips := fun x y hx hy =>
  ⟨rawPublicKey_length _, by rw [decodePublicKey, rawX_rawPublicKey y hx, rawY_rawPublicKey x hy]⟩

end Sys2Proof.Proofs
end

section
/-! The ECC unit's commands: the minimal encoding of a scalar, and for each command the state it answers in each case of
its checks, with the buffer it fills and the fields it writes (R509, R511 to R517). -/

namespace Sys2Proof.Machine

/-! ### The minimal encoding (R509) -/

theorem minBE_length (d : Nat) : (minBE d).length = (Nat.log2 d + 8) / 8 := beBytes_length _ _

/-- The length is at least 1, also for 0. -/
theorem minBE_length_pos (d : Nat) : 0 < (minBE d).length := by
  rw [minBE_length]
  omega

/-- The minimal encoding is long enough for its integer. -/
theorem lt_pow_minBE_length (d : Nat) : d < 256 ^ (minBE d).length := by
  calc d < 2 ^ (Nat.log2 d + 1) := Nat.lt_log2_self
    _ ≤ 2 ^ (8 * (minBE d).length) := Nat.pow_le_pow_right two_pos (by rw [minBE_length]; omega)
    _ = 256 ^ (minBE d).length := by rw [pow_mul]; norm_num

/-- One byte less is not enough. -/
theorem pow_minBE_length_pred_le {d : Nat} (h : 1 ≤ d) : 256 ^ ((minBE d).length - 1) ≤ d := by
  calc 256 ^ ((minBE d).length - 1) = 2 ^ (8 * ((minBE d).length - 1)) := by rw [pow_mul]; norm_num
    _ ≤ 2 ^ Nat.log2 d := Nat.pow_le_pow_right two_pos (by rw [minBE_length]; omega)
    _ ≤ d := Nat.log2_self_le (by omega)

theorem intBE_minBE (d : Nat) : intBE (minBE d) = d := by
  rw [minBE, intBE_beBytes, ← beBytes_length ((Nat.log2 d + 1 + 7) / 8) d, ← minBE,
    Nat.mod_eq_of_lt (lt_pow_minBE_length d)]

/-- As many bytes as hold the integer are as many as its minimal encoding has, or more. -/
theorem minBE_length_le_of_lt_pow {d k : Nat} (hd : 1 ≤ d) (h : d < 256 ^ k) : (minBE d).length ≤ k := by
  have hpow := (pow_minBE_length_pred_le hd).trans_lt h
  have hlt := (Nat.pow_lt_pow_iff_right (by norm_num)).1 hpow
  omega

/-- The encoding of a 256-bit integer, 0 among them, has at most 32 bytes. -/
theorem minBE_length_le {d : Nat} (h : d < 2 ^ 256) : (minBE d).length ≤ 32 := by
  rcases Nat.eq_zero_or_pos d with rfl | hd
  · decide
  · exact minBE_length_le_of_lt_pow hd (h.trans_eq (by norm_num))

/-- The first byte of an encoding is the integer's digit of the highest weight. -/
theorem byteAt_beBytes_zero {k : Nat} (hk : 0 < k) (v : Nat) :
    byteAt (beBytes k v) 0 = BitVec.ofNat 8 (v / 256 ^ (k - 1)) := by
  cases k with
  | zero => exact absurd hk (Nat.lt_irrefl 0)
  | succ k => rfl

theorem byteAt_minBE_zero_ne {d : Nat} (h : 1 ≤ d) : byteAt (minBE d) 0 ≠ 0 := by
  have hfirst : byteAt (minBE d) 0 = BitVec.ofNat 8 (d / 256 ^ ((minBE d).length - 1)) := by
    rw [minBE_length]
    exact byteAt_beBytes_zero (by omega) d
  have hpos : 0 < d / 256 ^ ((minBE d).length - 1) := Nat.div_pos (pow_minBE_length_pred_le h) (by positivity)
  have hlt : d / 256 ^ ((minBE d).length - 1) < 256 := by
    rw [Nat.div_lt_iff_lt_mul (by positivity), ← pow_succ', Nat.sub_add_cancel (minBE_length_pos d)]
    exact lt_pow_minBE_length d
  intro hzero
  have hmod := congrArg BitVec.toNat (hfirst.symm.trans hzero)
  rw [BitVec.toNat_ofNat, Nat.mod_eq_of_lt hlt] at hmod
  exact hpos.ne' hmod

/-! ### A completion that fills one buffer -/

/-- The completion's writes, field by field (R404). -/
theorem State.finish_eq (s : State) (op : BitVec 8) (err : ErrCode) : s.finish op err =
    { s with
      result := op ++ err.code, irqStat := s.irqStat ||| (if err = .ok then 1 else 3), fsm := .idle } :=
  s.finish_ended op err

/-- A completion after `v`, which is `u` with one buffer filled: that buffer is the only memory written, and `u`, whose
memory is that of `s`, has the command's writes to the other fields. -/
theorem State.finish_spec_of_fillBuf (s : State) {u v : State} {b : Buffer} {r : ByteString} (hv : v = u.fillBuf b r)
    (hmem : u.mem = s.mem) (hfits : r.length ≤ b.size) (op : BitVec 8) (err : ErrCode) :
    Filled s (v.finish op err) b r ∧ Ended u (v.finish op err) op err := by
  subst hv
  have hfilled := u.fillBuf_filled b r hfits
  exact ⟨⟨hfilled.bytes, fun a ha => by rw [State.finish_mem, hfilled.frame a ha, hmem]⟩,
    u.fillBuf_finish_ended b r op err⟩

theorem State.setKeyPair_eq (s : State) (d : Nat) : s.setKeyPair d =
    State.fillBuf { s with d := BitVec.ofNat 256 d, dValid := true } .pub (rawPublicKey (pointMul d basePoint)) := rfl

theorem State.dropKeyPair_eq (s : State) :
    s.dropKeyPair = State.fillBuf { s with d := 0, dValid := false } .pub [] := rfl

theorem State.exportKey_eq (s : State) : s.exportKey =
    State.fillBuf { s with privLen := BitVec.ofNat 16 (minBE s.d.toNat).length } .priv (minBE s.d.toNat) := rfl

theorem State.setShared_eq (s : State) (xS : Nat) :
    s.setShared xS = State.fillBuf { s with sharedValid := true } .shared (sharedSecret xS) := by
  simp only [State.setShared, State.fillBuf]

theorem State.dropShared_eq (s : State) :
    s.dropShared = State.fillBuf { s with sharedValid := false } .shared [] := rfl

/-- A public key fits PUB. -/
theorem rawPublicKey_fits (q : Point) : (rawPublicKey q).length ≤ Buffer.size .pub := (rawPublicKey_length q).le

/-- The encoding of D fits PRIV. -/
theorem minBE_fits (d : BitVec 256) : (minBE d.toNat).length ≤ Buffer.size .priv :=
  (minBE_length_le d.isLt).trans (by decide)

/-! ### EC_KEYGEN (R511) -/

theorem exec_ecKeygen_of_some {s : State} {r : Nat} (h : s.entropyAnswer = some r) :
    exec .ecKeygen s = .next ((s.afterDraw.setKeyPair (scalarAnswer r)).finish 0x10 .ok) := by
  show Host.Outcome.next (s.afterDraw.keygenWith s.entropyScalar) = _
  rw [State.entropyScalar, h]
  rfl

theorem exec_ecKeygen_of_none {s : State} (h : s.entropyAnswer = none) :
    exec .ecKeygen s = .next (s.afterDraw.dropKeyPair.finish 0x10 .entropyErr) := by
  show Host.Outcome.next (s.afterDraw.keygenWith s.entropyScalar) = _
  rw [State.entropyScalar, h]
  rfl

/-! ### EC_IMPORT_PRIV (R512) -/

theorem State.lengthError_ecImportPriv_iff (s : State) :
    s.lengthError .ecImportPriv = true ↔ s.privLen.toNat = 0 ∨ 36 < s.privLen.toNat := by
  simp [State.lengthError]

theorem validScalar_iff (d : Nat) : validScalar d = true ↔ ¬ (d = 0 ∨ groupOrder ≤ d) := by
  rw [validScalar, Bool.and_eq_true, decide_eq_true_eq, decide_eq_true_eq]
  omega

/-- The checks in their order, each as the rule words it. -/
theorem exec_ecImportPriv (s : State) : exec .ecImportPriv s = .next (
    if s.privLen.toNat = 0 ∨ 36 < s.privLen.toNat then s.dropKeyPair.finish 0x11 .lenErr
    else if intBE s.privOperand = 0 ∨ groupOrder ≤ intBE s.privOperand then s.dropKeyPair.finish 0x11 .invalidKey
    else (s.setKeyPair (intBE s.privOperand)).finish 0x11 .ok) := by
  show execEcImportPriv s = _
  simp only [execEcImportPriv, State.lengthError_ecImportPriv_iff, validScalar_iff, ite_not]
  rfl

/-! ### EC_EXPORT_PRIV (R513) -/

theorem exec_ecExportPriv_of_valid {s : State} (h : s.dValid = true) :
    exec .ecExportPriv s = .next (s.exportKey.finish 0x12 .ok) := congrArg Host.Outcome.next (if_pos h)

theorem exec_ecExportPriv_of_not_valid {s : State} (h : ¬ s.dValid = true) :
    exec .ecExportPriv s = .next (s.finish 0x12 .invalidKey) := congrArg Host.Outcome.next (if_neg h)

/-- PRIV_LEN holds the length of the encoding. -/
theorem State.toNat_exportKey_privLen (s : State) : s.exportKey.privLen.toNat = (minBE s.d.toNat).length := by
  have hlen := minBE_length_le s.d.isLt
  rw [State.exportKey_privLen, BitVec.toNat_ofNat]
  exact Nat.mod_eq_of_lt (by omega)

/-- After EC_EXPORT_PRIV the operand of EC_IMPORT_PRIV is the encoding of D (R513, R115). -/
theorem State.privOperand_exportKey (s : State) : s.exportKey.privOperand = minBE s.d.toNat := by
  rw [State.privOperand, State.toNat_exportKey_privLen, State.bufTake, State.buf_exportKey,
    (s.fillBuf_filled .priv _ (minBE_fits s.d)).bytes, List.take_left]

/-! ### EC_IMPORT_PUB (R514) -/

theorem exec_ecImportPub (s : State) : exec .ecImportPub s = .next (
    if validPub (s.buf .peer) then State.finish { s with peerValid := true } 0x13 .ok
    else State.finish { s with peerValid := false } 0x13 .invalidKey) := rfl

/-! ### EC_AGREE (R515) -/

theorem exec_ecAgree (s : State) : exec .ecAgree s = .next (
    if s.dValid = true ∧ validPub (s.buf .peer) = true then
      s.agreeWith (pointMul s.d.toNat (decodePublicKey (s.buf .peer)))
    else s.dropShared.finish 0x14 .keyAgreement) := rfl

end Sys2Proof.Machine

namespace Sys2Proof.Proofs

open Sys2Proof.Machine

/-- Settles O21: one byte less than the encoding's length does not hold the integer, and so no shorter string does. -/
theorem minimalEncodingIsShortest : Obligations.MinimalEncodingIsShortest := by
  intro d hd hlt
  refine ⟨intBE_minBE d, minBE_length_le hlt, byteAt_minBE_zero_ne hd, fun s hs => ?_⟩
  exact minBE_length_le_of_lt_pow hd (hs ▸ intBE_lt s)

/-- Settles O17, by the two answers of the entropy source. -/
theorem keygenInstallsTheDrawnScalar : Obligations.KeygenInstallsTheDrawnScalar := by
  intro s
  refine ⟨fun r hr => ⟨_, exec_ecKeygen_of_some hr, ?_⟩, fun hfail => ⟨_, exec_ecKeygen_of_none hfail, ?_⟩⟩
  · exact s.finish_spec_of_fillBuf (s.afterDraw.setKeyPair_eq _) rfl (rawPublicKey_fits _) 0x10 .ok
  · exact s.finish_spec_of_fillBuf s.afterDraw.dropKeyPair_eq rfl (Nat.zero_le _) 0x10 .entropyErr

/-- Settles O19, check by check. -/
theorem importPrivInstallsTheScalar : Obligations.ImportPrivInstallsTheScalar := by
  intro s
  refine ⟨_, exec_ecImportPriv s, ?_⟩
  rw [State.privOperand, State.bufTake]
  split
  · exact s.finish_spec_of_fillBuf s.dropKeyPair_eq rfl (Nat.zero_le _) 0x11 .lenErr
  split
  · exact s.finish_spec_of_fillBuf s.dropKeyPair_eq rfl (Nat.zero_le _) 0x11 .invalidKey
  · exact s.finish_spec_of_fillBuf (s.setKeyPair_eq _) rfl (rawPublicKey_fits _) 0x11 .ok

/-- Settles O20. -/
theorem exportPrivWritesTheMinimalScalar : Obligations.ExportPrivWritesTheMinimalScalar := by
  intro s
  split
  next hvalid =>
    exact ⟨_, exec_ecExportPriv_of_valid hvalid,
      s.finish_spec_of_fillBuf s.exportKey_eq rfl (minBE_fits s.d) 0x12 .ok⟩
  next hinvalid =>
    rw [exec_ecExportPriv_of_not_valid hinvalid, State.finish_eq]
    rfl

/-- Settles O22: EC_IMPORT_PRIV reads the encoding of D back, whose integer is D, in range by the premise. -/
theorem exportThenImportRestoresTheScalar : Obligations.ExportThenImportRestoresTheScalar := by
  intro s hvalid hrange
  refine ⟨_, _, exec_ecExportPriv_of_valid hvalid, exec_ecImportPriv _, ?_⟩
  have hoperand : (s.exportKey.finish 0x12 .ok).privOperand = minBE s.d.toNat := s.privOperand_exportKey
  have hlength : (s.exportKey.finish 0x12 .ok).privLen.toNat = (minBE s.d.toNat).length := s.toNat_exportKey_privLen
  have hpos := minBE_length_pos s.d.toNat
  have hle := minBE_length_le s.d.isLt
  have hscalar : ¬ (s.d.toNat = 0 ∨ groupOrder ≤ s.d.toNat) := (validScalar_iff _).1 hrange
  rw [hlength, hoperand, intBE_minBE, if_neg (by omega), if_neg hscalar]
  refine ⟨State.errCode_finish _ _ _, rfl, ?_⟩
  rw [State.finish_d, State.setKeyPair_d, BitVec.ofNat_toNat, BitVec.setWidth_eq]

/-- Settles O25: the two checks, then the two kinds of point that the product can be. -/
theorem agreeWritesTheSharedSecret : Obligations.AgreeWritesTheSharedSecret := by
  intro s
  refine ⟨_, exec_ecAgree s, ?_⟩
  split
  · cases pointMul s.d.toNat (decodePublicKey (s.buf .peer)) with
    | infinity => exact s.finish_spec_of_fillBuf s.dropShared_eq rfl (Nat.zero_le _) 0x14 .keyAgreement
    | affine xS yS => exact s.finish_spec_of_fillBuf (s.setShared_eq xS) rfl (beBytes_length 32 xS).le 0x14 .ok
  · exact s.finish_spec_of_fillBuf s.dropShared_eq rfl (Nat.zero_le _) 0x14 .keyAgreement

/-- Settles O23: the completion of either outcome, written out. -/
theorem importPubValidatesPeer : Obligations.ImportPubValidatesPeer := by
  intro s
  rw [exec_ecImportPub, State.finish_eq, State.finish_eq]
  split
  · rfl
  · rfl

end Sys2Proof.Proofs
end

section
/-! The KDF unit's commands: which keys HMAC takes for the same, and for each command the state it answers in each case
of its checks (R608, R610, R613, R614). -/

namespace Sys2Proof.Machine

/-! ### HMAC's key block (R608) -/

theorem hmacKeyBlock_of_length_le {k : ByteString} (h : k.length ≤ 64) :
    hmacKeyBlock k = k ++ zeros (64 - k.length) := by
  simp only [hmacKeyBlock, if_neg (not_lt.2 h)]

/-- A key that is not hashed is padded with zeros, so those it ends in already make no difference. -/
theorem hmacKeyBlock_append_zeros {k : ByteString} {j : Nat} (h : k.length + j ≤ 64) :
    hmacKeyBlock (k ++ zeros j) = hmacKeyBlock k := by
  have hlen : (k ++ zeros j).length = k.length + j := by rw [List.length_append, zeros_length]
  have hpad : j + (64 - (k.length + j)) = 64 - k.length := by omega
  rw [hmacKeyBlock_of_length_le (hlen.trans_le h), hmacKeyBlock_of_length_le (by omega), hlen, List.append_assoc,
    ← zeros_add, hpad]

theorem hmacSha256_append_zeros {k : ByteString} {j : Nat} (h : k.length + j ≤ 64) (m : ByteString) :
    hmacSha256 (k ++ zeros j) m = hmacSha256 k m := by
  simp only [hmacSha256, hmacKeyBlock_append_zeros h]

/-! ### A result of known length -/

/-- An OUT writer's success with a result of `n` bytes, and OUT_LEN (R409). -/
theorem State.succeedOut_spec_of_length (s : State) (op : BitVec 8) {r : ByteString} {n : Nat} (hlen : r.length = n)
    (hfits : n ≤ 512) : OutSuccess s (s.succeedOut op r) op r ∧ (s.succeedOut op r).outLen = BitVec.ofNat 16 n := by
  subst hlen
  exact ⟨s.succeedOut_spec op r hfits, s.succeedOut_outLen op r⟩

/-! ### HKDF (R613) -/

theorem State.lengthError_hkdf_iff (s : State) (saltp ikmsrc : Bool) : s.lengthError (.hkdf saltp ikmsrc) = true ↔
    (saltp = true ∧ 64 < s.saltLen.toNat) ∨ (ikmsrc = false ∧ 64 < s.ikmLen.toNat) := by
  simp [State.lengthError]

/-- The checks in their order, each as the rule words it. -/
theorem exec_hkdf (saltp ikmsrc : Bool) (s : State) : exec (.hkdf saltp ikmsrc) s = .next (
    if (saltp = true ∧ 64 < s.saltLen.toNat) ∨ (ikmsrc = false ∧ 64 < s.ikmLen.toNat) then s.failOut 0x20 .lenErr
    else if ikmsrc = true ∧ s.sharedValid = false then s.failOut 0x20 .invalidKey
    else s.succeedOut 0x20 (s.hkdfOkm saltp ikmsrc)) := by
  show execHkdf saltp ikmsrc s = _
  simp only [execHkdf, State.lengthError_hkdf_iff]
  rfl

/-! ### HMAC (R614) -/

theorem State.lengthError_hmac_iff (s : State) :
    s.lengthError .hmac = true ↔ 64 < s.saltLen.toNat ∨ 512 < s.inLen.toNat := by
  simp [State.lengthError]

theorem exec_hmac (s : State) : exec .hmac s = .next (
    if 64 < s.saltLen.toNat ∨ 512 < s.inLen.toNat then s.failOut 0x21 .lenErr
    else s.succeedOut 0x21 (hmacSha256 s.saltOperand s.inOperand)) := by
  show execHmac s = _
  simp only [execHmac, State.lengthError_hmac_iff]
  rfl

end Sys2Proof.Machine

namespace Sys2Proof.Proofs

open Sys2Proof.Machine

/-- Settles O29, check by check; the strings between the operands and the result are those of Extract and Expand. -/
theorem hkdfWritesTheKeyMaterial : Obligations.HkdfWritesTheKeyMaterial := by
  intro s saltp ikmsrc
  refine ⟨_, exec_hkdf saltp ikmsrc s, ?_⟩
  split
  · exact s.failOut_spec 0x20 .lenErr nofun
  split
  · exact s.failOut_spec 0x20 .invalidKey nofun
  · exact ⟨s.hkdfIkm ikmsrc, s.hkdfSalt saltp, hkdfInfo saltp, _, _, _, rfl, rfl, rfl, rfl, rfl, rfl,
      s.succeedOut_spec_of_length 0x20 (s.hkdfOkm_length saltp ikmsrc) (by decide)⟩

/-- Settles O31. -/
theorem hmacWritesTheDigest : Obligations.HmacWritesTheDigest := by
  intro s
  refine ⟨_, exec_hmac s, ?_⟩
  split
  · exact s.failOut_spec 0x21 .lenErr nofun
  · exact s.succeedOut_spec_of_length 0x21 (hmacSha256_length s.saltOperand s.inOperand) (by decide)

/-- Settles O30: the absent salt is the empty one with 32 zeros after it, and HMAC takes both for the same key. -/
theorem emptySaltGivesTheAbsentSaltsPrk : Obligations.EmptySaltGivesTheAbsentSaltsPrk := fun ikm =>
  (hmacSha256_append_zeros (k := []) (j := 32) (by decide) ikm).symm

end Sys2Proof.Proofs
end

section
/-! CCM and the AEAD unit's commands: decryption as the inverse of encryption, and for each command the state it answers
in each case of its checks (R716, R717, R719 to R722, R726). -/

namespace Sys2Proof.Machine

/-! ### Decryption (R717) -/

/-- Fewer bytes than a tag are INVALID. -/
theorem ccmDecrypt_of_length_lt {c : ByteString} (key nonce aad : ByteString) (h : c.length < 4) :
    ccmDecrypt key nonce aad c = none := if_pos h

/-- A ciphertext with the 4 bytes `u` after it: the payload is what the key stream makes of the ciphertext, and `u`
must be its encrypted tag. -/
theorem ccmDecrypt_append {ct u : ByteString} (key nonce aad : ByteString) (hu : u.length = 4) :
    ccmDecrypt key nonce aad (ct ++ u) =
      if xorBytes u (ccmTagMask key nonce) = ccmMac key nonce aad (xorBytes ct (ccmKeyStream key nonce ct.length)) then
        some (xorBytes ct (ccmKeyStream key nonce ct.length))
      else none := by
  have hlen : (ct ++ u).length = ct.length + 4 := by rw [List.length_append, hu]
  have hlong : ¬ (ct ++ u).length < Config.tagBytes := by rw [hlen]; exact not_lt.2 (Nat.le_add_left 4 _)
  have hn : (ct ++ u).length - Config.tagBytes = ct.length := by rw [hlen]; exact Nat.add_sub_cancel ..
  simp only [ccmDecrypt, if_neg hlong, hn, List.take_left, List.drop_left]

/-- Both exclusive-ors of the encryption are undone: the payload's first, so that the tag is recomputed from the same
payload and agrees (R726). -/
theorem ccmDecrypt_ccmEncrypt {key : ByteString} (nonce aad p : ByteString) (hkey : key.length = 16) :
    ccmDecrypt key nonce aad (ccmEncrypt key nonce aad p) = some p := by
  have hstream := ccmKeyStream_length key nonce p.length hkey
  have hmac := ccmMac_length key nonce aad p hkey
  have hmask := ccmTagMask_length key nonce hkey
  have hct : (xorBytes p (ccmKeyStream key nonce p.length)).length = p.length := by
    rw [xorBytes_length, hstream, Nat.min_self]
  have hpayload : xorBytes (xorBytes p (ccmKeyStream key nonce p.length)) (ccmKeyStream key nonce p.length) = p :=
    xorBytes_cancel p _ hstream.ge
  have htag : xorBytes (xorBytes (ccmMac key nonce aad p) (ccmTagMask key nonce)) (ccmTagMask key nonce) =
      ccmMac key nonce aad p := xorBytes_cancel _ _ (hmac.trans hmask.symm).le
  rw [ccmEncrypt, ccmDecrypt_append key nonce aad (by rw [xorBytes_length, hmac, hmask, Nat.min_self]), hct, hpayload,
    if_pos htag]

/-! ### Operands and results within their buffers -/

/-- All of IN_LEN's bytes are in IN (R111). -/
theorem State.inOperand_length_of_le {s : State} (h : s.inLen.toNat ≤ 512) : s.inOperand.length = s.inLen.toNat := by
  rw [State.inOperand_length, Nat.min_eq_left h]

/-- OUT_LEN is wide enough for every result (R112). -/
theorem State.toNat_succeedOut_outLen (s : State) (op : BitVec 8) {r : ByteString} (h : r.length ≤ 512) :
    (s.succeedOut op r).outLen.toNat = r.length := by
  rw [State.succeedOut_outLen, BitVec.toNat_ofNat]
  exact Nat.mod_eq_of_lt (by omega)

/-- The first OUT_LEN bytes of OUT are the result (R409). -/
theorem State.take_output_succeedOut (s : State) (op : BitVec 8) {r : ByteString} (h : r.length ≤ 512) :
    ((s.succeedOut op r).buf .output).take r.length = r := by
  rw [(s.succeedOut_spec op r h).filled.bytes, List.take_left]

/-! ### The commands that encrypt (R719, R721) -/

theorem State.lengthError_ccmEnc_iff (s : State) :
    s.lengthError .ccmEnc = true ↔ 64 < s.aadLen.toNat ∨ 508 < s.inLen.toNat := by
  simp [State.lengthError]

theorem exec_ccmEnc (s : State) : exec .ccmEnc s = .next (
    if 64 < s.aadLen.toNat ∨ 508 < s.inLen.toNat then s.failOut 0x30 .lenErr
    else s.succeedOut 0x30 (ccmEncrypt (s.buf .key) (s.buf .nonce) s.aadOperand s.inOperand)) := by
  show execCcmEnc s = _
  simp only [execCcmEnc, State.lengthError_ccmEnc_iff]
  rfl

theorem State.lengthError_devidEnc_iff (s : State) : s.lengthError .devidEnc = true ↔ 508 < s.inLen.toNat := by
  simp [State.lengthError]

theorem exec_devidEnc (s : State) : exec .devidEnc s = .next (
    if 508 < s.inLen.toNat then s.failOut 0x32 .lenErr
    else s.succeedOut 0x32 (ccmEncrypt (s.buf .key) devidNonce devidAad s.inOperand)) := by
  show execDevidEnc s = _
  simp only [execDevidEnc, State.lengthError_devidEnc_iff]
  rfl

/-- DEVID_NONCE counts from 16 to 27. -/
theorem devidNonce_eq : devidNonce = (List.range 12).map fun j => BitVec.ofNat 8 (16 + j) := by decide

theorem State.ccmEncrypt_inOperand_length {s : State} (nonce aad : ByteString) (h : s.inLen.toNat ≤ 508) :
    (ccmEncrypt (s.buf .key) nonce aad s.inOperand).length = s.inLen.toNat + 4 := by
  rw [ccmEncrypt_length _ _ _ _ (s.buf_length .key), State.inOperand_length_of_le (by omega)]

/-- The success of a command whose result is an encryption of IN under KEY. -/
theorem State.succeedOut_ccmEncrypt_spec {s : State} (op : BitVec 8) (nonce aad : ByteString)
    (h : s.inLen.toNat ≤ 508) :
    OutSuccess s (s.succeedOut op (ccmEncrypt (s.buf .key) nonce aad s.inOperand)) op
        (ccmEncrypt (s.buf .key) nonce aad s.inOperand) ∧
      (s.succeedOut op (ccmEncrypt (s.buf .key) nonce aad s.inOperand)).outLen.toNat = s.inLen.toNat + 4 := by
  have hfits := s.ccmEncrypt_inOperand_fits nonce aad h
  exact ⟨s.succeedOut_spec op _ hfits,
    (s.toNat_succeedOut_outLen op hfits).trans (State.ccmEncrypt_inOperand_length nonce aad h)⟩

/-! ### CCM_DEC (R720) -/

theorem State.lengthError_ccmDec_iff (s : State) :
    s.lengthError .ccmDec = true ↔ 64 < s.aadLen.toNat ∨ 512 < s.inLen.toNat := by
  simp [State.lengthError]

theorem exec_ccmDec (s : State) : exec .ccmDec s = .next (
    if 64 < s.aadLen.toNat ∨ 512 < s.inLen.toNat then s.failOut 0x31 .lenErr
    else s.ccmDecWith (ccmDecrypt (s.buf .key) (s.buf .nonce) s.aadOperand s.inOperand)) := by
  show execCcmDec s = _
  simp only [execCcmDec, State.lengthError_ccmDec_iff]
  rfl

/-- The success of CCM_DEC with what CCM_Decrypt answers for IN, which is 4 bytes shorter. -/
theorem State.succeedOut_ccmDecrypt_spec {s : State} {nonce aad p : ByteString} (op : BitVec 8)
    (h : s.inLen.toNat ≤ 512) (hp : ccmDecrypt (s.buf .key) nonce aad s.inOperand = some p) :
    OutSuccess s (s.succeedOut op p) op p ∧ (s.succeedOut op p).outLen.toNat + 4 = s.inLen.toNat := by
  have hlen := ccmDecrypt_length _ _ _ _ _ (s.buf_length .key) hp
  rw [State.inOperand_length_of_le h] at hlen
  have hfits : p.length ≤ 512 := by omega
  exact ⟨s.succeedOut_spec op p hfits, by rw [s.toNat_succeedOut_outLen op hfits, hlen]⟩

/-- IN holds an encryption under the KEY, NONCE and AAD that CCM_DEC reads: the payload is its result. -/
theorem exec_ccmDec_of_encrypted {u : State} {p : ByteString} (haad : u.aadLen.toNat ≤ 64) (hin : u.inLen.toNat ≤ 512)
    (hc : u.inOperand = ccmEncrypt (u.buf .key) (u.buf .nonce) u.aadOperand p) :
    exec .ccmDec u = .next (u.succeedOut 0x31 p) := by
  rw [exec_ccmDec, if_neg (by omega), hc, ccmDecrypt_ccmEncrypt _ _ _ (u.buf_length .key)]
  rfl

end Sys2Proof.Machine

namespace Sys2Proof.Proofs

open Sys2Proof.Machine

/-- Settles O35. -/
theorem ccmDecryptInvertsEncrypt : Obligations.CcmDecryptInvertsEncrypt := fun _ nonce aad p hkey =>
  ccmDecrypt_ccmEncrypt nonce aad p hkey

/-- Settles O32. -/
theorem ccmEncWritesCiphertextAndTag : Obligations.CcmEncWritesCiphertextAndTag := by
  intro s
  refine ⟨_, exec_ccmEnc s, ?_⟩
  split
  · exact s.failOut_spec 0x30 .lenErr nofun
  · exact State.succeedOut_ccmEncrypt_spec 0x30 _ _ (by omega)

/-- Settles O34. -/
theorem devidEncUsesTheFixedNonce : Obligations.DevidEncUsesTheFixedNonce := by
  intro s
  refine ⟨_, exec_devidEnc s, ?_⟩
  rw [← devidNonce_eq]
  split
  · exact s.failOut_spec 0x32 .lenErr nofun
  · exact State.succeedOut_ccmEncrypt_spec 0x32 _ _ (by omega)

/-- Settles O33, check by check; an input shorter than a tag is the first of the two cases of INVALID. -/
theorem ccmDecWritesThePlaintextOrFails : Obligations.CcmDecWritesThePlaintextOrFails := by
  intro s
  refine ⟨_, exec_ccmDec s, ?_⟩
  rw [← State.bufTake, ← State.bufTake, ← State.aadOperand, ← State.inOperand]
  split
  · exact s.failOut_spec 0x31 .lenErr nofun
  · split
    · rw [ccmDecrypt_of_length_lt _ _ _ (by rw [State.inOperand_length]; omega)]
      exact s.failOut_spec 0x31 .authFail nofun
    · cases hp : ccmDecrypt (s.buf .key) (s.buf .nonce) s.aadOperand s.inOperand with
      | none => exact s.failOut_spec 0x31 .authFail nofun
      | some p => exact State.succeedOut_ccmDecrypt_spec 0x31 (by omega) hp

/-- Settles O36: the premises make the second state's operand the first one's result, an encryption under the KEY, NONCE
and AAD that the second state reads, too. -/
theorem ccmDecReturnsWhatCcmEncEncrypted : Obligations.CcmDecReturnsWhatCcmEncEncrypted := by
  intro s t u haad hin henc hkey hnonce haadBuf haadLen hinLen hlooped
  rw [exec_ccmEnc, if_neg (by omega)] at henc
  cases henc
  have hfits := s.ccmEncrypt_inOperand_fits (s.buf .nonce) s.aadOperand hin
  have hout := s.toNat_succeedOut_outLen 0x30 hfits
  have hoperand : s.inOperand.length = s.inLen.toNat := State.inOperand_length_of_le (by omega)
  have haadOperand : u.aadOperand = s.aadOperand := by
    rw [State.aadOperand, State.bufTake, haadBuf, haadLen]
    rfl
  have hinOperand : u.inOperand = ccmEncrypt (u.buf .key) (u.buf .nonce) u.aadOperand s.inOperand := by
    rw [hkey, hnonce, haadOperand, State.inOperand, State.bufTake, hinLen, hlooped, hout,
      s.take_output_succeedOut 0x30 hfits]
  refine ⟨_, exec_ccmDec_of_encrypted (by rw [haadLen]; exact haad) (by rw [hinLen, hout]; exact hfits) hinOperand,
    u.errCode_succeedOut 0x31 _, ?_, ?_⟩
  · rw [State.succeedOut_outLen, hoperand, BitVec.ofNat_toNat, BitVec.setWidth_eq]
  · have hplain := u.take_output_succeedOut 0x31 (r := s.inOperand) (by omega)
    rw [hoperand] at hplain
    exact hplain

end Sys2Proof.Proofs
end

section
/-! The frame unit's commands: a frame taken apart again into what it was built from, and for each command the state it
answers in each case of its checks (R803 to R814). -/

namespace Sys2Proof.Machine

/-! ### The nonce (R806) -/

theorem beBytes_injective_of_lt {k v w : Nat} (hv : v < 256 ^ k) (hw : w < 256 ^ k) (h : beBytes k v = beBytes k w) :
    v = w := by
  rw [← intBE_beBytes_of_lt hv, h, intBE_beBytes_of_lt hw]

/-! ### Parts of a string made of two (R10) -/

theorem byteAt_take {n i : Nat} (s : ByteString) (h : i < n) : byteAt (s.take n) i = byteAt s i := by
  rw [byteAt, List.getD, List.getElem?_take_of_lt h, ← List.getD, ← byteAt]

theorem slice_append_left (a b : ByteString) (i : Nat) : slice (a ++ b) i a.length = a.drop i := by
  rw [slice, List.take_left]

theorem slice_append_right (a b : ByteString) : slice (a ++ b) a.length (a ++ b).length = b := by
  rw [slice, List.take_length, List.drop_left]

/-! ### A frame's parts (R804, R807) -/

@[simp] theorem crcTrailer_length (b : ByteString) : (crcTrailer b).length = 2 := rfl

/-- The first five bytes of a frame, the counter's low half with its low byte first. -/
theorem frameBody_eq (size : Byte) (c : BitVec 32) (ct : ByteString) : frameBody size c.toNat ct =
    [0x55, 0xAB, size, c.extractLsb' 0 8, c.extractLsb' 8 8] ++ ct := by
  rw [← byteAt_leBytes_word (j := 0) (by decide), ← byteAt_leBytes_word (j := 1) (by decide)]
  rfl

theorem frameSeal_length_sub_two (body : ByteString) : (frameSeal body).length - 2 = body.length := by
  rw [frameSeal, List.length_append, crcTrailer_length, Nat.add_sub_cancel]

/-- From an offset up to the trailer is the body from there on. -/
theorem slice_frameSeal (body : ByteString) (i : Nat) :
    slice (frameSeal body) i ((frameSeal body).length - 2) = body.drop i := by
  rw [frameSeal_length_sub_two, frameSeal, slice_append_left]

theorem slice_frameSeal_trailer (body : ByteString) :
    slice (frameSeal body) ((frameSeal body).length - 2) (frameSeal body).length = crcTrailer (body.drop 2) := by
  rw [frameSeal_length_sub_two, frameSeal, slice_append_right]

/-- A sealed body passes the CRC check, whatever CRC16_FN is (R813). -/
theorem State.crcMismatch_frameSeal (s : State) (body : ByteString) : s.crcMismatch (frameSeal body) = false := by
  rw [State.crcMismatch, slice_frameSeal, slice_frameSeal_trailer, bne_self_eq_false, Bool.and_false]

/-- The upper half from RX_CTR_HI and the lower half from the frame make the counter (R812). -/
theorem State.receiveCounter_frameSeal {s : State} {c : BitVec 32} (h : s.rxCtrHi = c.extractLsb' 16 16) (size : Byte)
    (ct : ByteString) : s.receiveCounter (frameSeal (frameBody size c.toNat ct)) = c.toNat := by
  have hbytes : s.receiveCounter (frameSeal (frameBody size c.toNat ct)) =
      s.rxCtrHi.toNat * 65536 + (c.extractLsb' 8 8).toNat * 256 + (c.extractLsb' 0 8).toNat := by
    rw [frameBody_eq]
    rfl
  have hc := c.isLt
  simp only [hbytes, h, BitVec.extractLsb'_toNat, Nat.shiftRight_eq_div_pow]
  omega

/-! ### CRC16 (R803) -/

/-- The trailer's two bytes as CRC_RESULT holds them, the first in bits 7:0. -/
theorem ofNat_intLE_crcTrailer (b : ByteString) :
    BitVec.ofNat 16 (intLE (crcTrailer b)) = (Config.crc16Fn b).2 ++ (Config.crc16Fn b).1 := by
  apply BitVec.eq_of_toNat_eq
  have hlow := (Config.crc16Fn b).1.isLt
  have hhigh := (Config.crc16Fn b).2.isLt
  rw [BitVec.toNat_append, ← Nat.shiftLeft_add_eq_or_of_lt hlow, Nat.shiftLeft_eq, BitVec.toNat_ofNat]
  simp only [crcTrailer, intLE]
  omega

theorem State.lengthError_crc16_iff (s : State) : s.lengthError .crc16 = true ↔ 512 < s.inLen.toNat := by
  simp [State.lengthError]

theorem exec_crc16 (s : State) : exec .crc16 s = .next (
    if 512 < s.inLen.toNat then State.finish { s with crcResult := 0 } 0x42 .lenErr
    else
      State.finish { s with crcResult := (Config.crc16Fn s.inOperand).2 ++ (Config.crc16Fn s.inOperand).1 } 0x42
        .ok) := by
  show execCrc16 s = _
  simp only [execCrc16, State.lengthError_crc16_iff, ofNat_intLE_crcTrailer]
  rfl

/-! ### The code of a failure (R410) -/

theorem State.errCode_failOut (s : State) (op : BitVec 8) (err : ErrCode) : (s.failOut op err).errCode = err.code :=
  (s.setOut []).errCode_finish op err

/-! ### FRAME_ENC (R809) -/

theorem State.lengthError_frameEnc_iff (s : State) (padsrc : Bool) :
    s.lengthError (.frameEnc padsrc) = true ↔ s.inLen.toNat < 3 ∨ 500 < s.inLen.toNat := by
  simp [State.lengthError]

theorem State.counterExhausted_iff (s : State) :
    s.counterExhausted = true ↔ s.autoInc = true ∧ s.counter = 0xFFFFFFFF := by
  rw [State.counterExhausted, Bool.and_eq_true, beq_iff_eq]

theorem State.bumpCounter_eq (s : State) :
    s.bumpCounter = { s with counter := if s.autoInc then s.counter + 1 else s.counter } := by
  rw [State.bumpCounter]
  split <;> rfl

/-- The state whose OUT FRAME_ENC's success writes: the pad is taken and COUNTER has its new value (R808, R810). -/
def State.afterFrame (s : State) (padsrc : Bool) : State :=
  { s.afterPad padsrc with counter := if s.autoInc then s.counter + 1 else s.counter }

theorem State.bumpCounter_afterPad (s : State) (padsrc : Bool) :
    (s.afterPad padsrc).bumpCounter = s.afterFrame padsrc := by
  rw [State.bumpCounter_eq]
  cases padsrc <;> rfl

/-- The four ways FRAME_ENC ends, each with the checks it has passed and the one it fails. -/
inductive FrameEncEnd (s : State) (padsrc : Bool) : State → Prop
  | lenErr (hlen : s.inLen.toNat < 3 ∨ 500 < s.inLen.toNat) : FrameEncEnd s padsrc (s.failOut 0x40 .lenErr)
  | ctrExhausted (hlen : ¬ (s.inLen.toNat < 3 ∨ 500 < s.inLen.toNat))
      (hctr : s.autoInc = true ∧ s.counter = 0xFFFFFFFF) : FrameEncEnd s padsrc (s.failOut 0x40 .ctrExhausted)
  | entropyErr (hlen : ¬ (s.inLen.toNat < 3 ∨ 500 < s.inLen.toNat))
      (hctr : ¬ (s.autoInc = true ∧ s.counter = 0xFFFFFFFF)) (hpad : s.framePad padsrc = none) :
      FrameEncEnd s padsrc (s.afterDraw.failOut 0x40 .entropyErr)
  | framed (pad : ByteString) (hlen : ¬ (s.inLen.toNat < 3 ∨ 500 < s.inLen.toNat))
      (hctr : ¬ (s.autoInc = true ∧ s.counter = 0xFFFFFFFF)) (hpad : s.framePad padsrc = some pad) :
      FrameEncEnd s padsrc ((s.afterFrame padsrc).succeedOut 0x40
        (encodeFrame (s.buf .key) s.ivBytes s.inOperand s.counter.toNat pad))

/-- Only the entropy source can fail to give a pad (R808). -/
theorem State.afterPad_of_framePad_eq_none {s : State} {padsrc : Bool} (h : s.framePad padsrc = none) :
    s.afterPad padsrc = s.afterDraw := by
  cases padsrc with
  | true => cases h
  | false => rfl

theorem State.frameEncWith_none (s : State) (padsrc : Bool) :
    s.frameEncWith padsrc none = s.failOut 0x40 .entropyErr := rfl

/-- Taking the pad leaves FRAME_ENC's other operands as they are. -/
theorem State.frameEncWith_some (s : State) (padsrc : Bool) (pad : ByteString) :
    (s.afterPad padsrc).frameEncWith padsrc (some pad) = (s.afterFrame padsrc).succeedOut 0x40
      (encodeFrame (s.buf .key) s.ivBytes s.inOperand s.counter.toNat pad) := by
  rw [← State.bumpCounter_afterPad, State.afterPad_eq_withEntropy]
  rfl

/-- The checks in their order, each as the rule words it. -/
theorem exec_frameEncEnd (padsrc : Bool) (s : State) :
    ∃ t, exec (.frameEnc padsrc) s = .next t ∧ FrameEncEnd s padsrc t := by
  refine ⟨_, rfl, ?_⟩
  simp only [State.lengthError_frameEnc_iff, State.counterExhausted_iff]
  split
  next hlen => exact .lenErr hlen
  next hlen =>
    split
    next hctr => exact .ctrExhausted hlen hctr
    next hctr =>
      cases hpad : s.framePad padsrc with
      | none =>
        rw [State.frameEncWith_none, State.afterPad_of_framePad_eq_none hpad]
        exact .entropyErr hlen hctr hpad
      | some pad =>
        rw [State.frameEncWith_some]
        exact .framed pad hlen hctr hpad

theorem frameEncEnd_of_exec {padsrc : Bool} {s t : State} (h : exec (.frameEnc padsrc) s = .next t) :
    FrameEncEnd s padsrc t := by
  obtain ⟨t', ht', hend⟩ := exec_frameEncEnd padsrc s
  cases ht'.symm.trans h
  exact hend

/-- A frame is 12 bytes longer than the message in IN, and fits OUT (R408, R804). -/
theorem State.encodeFrame_inOperand_length {s : State} {padsrc : Bool} {pad : ByteString}
    (hlen : ¬ (s.inLen.toNat < 3 ∨ 500 < s.inLen.toNat)) (hpad : s.framePad padsrc = some pad) :
    (encodeFrame (s.buf .key) s.ivBytes s.inOperand s.counter.toNat pad).length = s.inLen.toNat + 12 := by
  rw [encodeFrame_length _ _ _ _ _ (s.buf_length .key) (s.framePad_length padsrc pad hpad),
    State.inOperand_length_of_le (by omega)]
  omega

/-! ### FRAME_DEC (R811) -/

theorem State.lengthError_frameDec_iff (s : State) : s.lengthError .frameDec = true ↔ 512 < s.inLen.toNat := by
  simp [State.lengthError]

theorem State.crcMismatch_iff (s : State) (f : ByteString) : s.crcMismatch f = true ↔
    s.crcChk = true ∧ crcTrailer (slice f 2 (f.length - 2)) ≠ slice f (f.length - 2) f.length := by
  rw [State.crcMismatch, Bool.and_eq_true, bne_iff_ne]

/-- The checks in their order, each as the rule words it. -/
theorem exec_frameDec (s : State) : exec .frameDec s = .next (
    if 512 < s.inLen.toNat then s.failOut 0x41 .lenErr
    else if s.inLen.toNat < 15 then s.failOut 0x41 .frameErr
    else if byteAt s.inOperand 0 ≠ 0x55 ∨ byteAt s.inOperand 1 ≠ 0xAB then s.failOut 0x41 .frameErr
    else if s.crcChk = true ∧ crcTrailer (slice s.inOperand 2 (s.inOperand.length - 2)) ≠
        slice s.inOperand (s.inOperand.length - 2) s.inOperand.length then
      s.failOut 0x41 .crcErr
    else s.frameDecWith s.inOperand (ccmDecrypt (s.buf .key) (frameNonce s.ivBytes (s.receiveCounter s.inOperand)) []
      (slice s.inOperand 5 (s.inOperand.length - 2)))) := by
  show execFrameDec s = _
  simp only [execFrameDec, State.lengthError_frameDec_iff, State.crcMismatch_iff]
  rfl

theorem decodedFrame_length {f p : ByteString} (hf : 3 ≤ f.length) :
    (decodedFrame f p).length = p.length - 4 + 3 := by
  simp only [decodedFrame, List.length_append, List.length_take]
  omega

/-- What FRAME_DEC writes before OUT (R811, R812). -/
def State.withReceived (s : State) (size : Byte) (c : Nat) : State :=
  { s with rxSize := size, rxCounter := BitVec.ofNat 32 c }

theorem State.frameDecWith_some (s : State) (f p : ByteString) : s.frameDecWith f (some p) =
    (s.withReceived (byteAt f 2) (s.receiveCounter f)).succeedOut 0x41 (decodedFrame f p) := rfl

/-- The success of FRAME_DEC with what CCM_Decrypt answers for the bytes between the head and the trailer: the result is
the frame without its 12 further bytes. -/
theorem State.succeedOut_decodedFrame_spec {s u : State} {nonce p : ByteString} (op : BitVec 8)
    (hmin : 15 ≤ s.inLen.toNat) (hmax : s.inLen.toNat ≤ 512)
    (hp : ccmDecrypt (s.buf .key) nonce [] (slice s.inOperand 5 (s.inLen.toNat - 2)) = some p) :
    OutSuccess u (u.succeedOut op (decodedFrame s.inOperand p)) op (decodedFrame s.inOperand p) ∧
      (u.succeedOut op (decodedFrame s.inOperand p)).outLen.toNat + 12 = s.inLen.toNat := by
  have hin : s.inOperand.length = s.inLen.toNat := State.inOperand_length_of_le hmax
  have hlen := ccmDecrypt_length _ _ _ _ _ (s.buf_length .key) hp
  rw [slice_length, hin] at hlen
  have hresult : (decodedFrame s.inOperand p).length = p.length - 4 + 3 := decodedFrame_length (by omega)
  have hfits : (decodedFrame s.inOperand p).length ≤ 512 := by omega
  exact ⟨u.succeedOut_spec op _ hfits, by rw [u.toNat_succeedOut_outLen op hfits]; omega⟩

/-! ### FRAME_DEC of a frame (R814) -/

/-- The message's part of a payload and its pad. -/
theorem decodedFrame_encodeFrame (key iv m : ByteString) (c : Nat) {p pad : ByteString} (hpad : pad.length = 4) :
    decodedFrame (encodeFrame key iv m c pad) (p ++ pad) = [0x55, 0xAB, byteAt m 2] ++ p := by
  rw [decodedFrame, List.length_append, hpad, Nat.add_sub_cancel, List.take_left]
  rfl

/-- IN holds a frame under the KEY and IV that FRAME_DEC reads, and RX_CTR_HI the upper half of its counter: no check
fails, and the result is the message from its third byte on, after the header. -/
theorem exec_frameDec_of_framed {u : State} {m pad : ByteString} {c : BitVec 32} (hpad : pad.length = 4)
    (hmin : 15 ≤ u.inLen.toNat) (hmax : u.inLen.toNat ≤ 512) (hctr : u.rxCtrHi = c.extractLsb' 16 16)
    (hf : u.inOperand = encodeFrame (u.buf .key) u.ivBytes m c.toNat pad) :
    exec .frameDec u = .next ((u.withReceived (byteAt m 2) c.toNat).succeedOut 0x41
      ([0x55, 0xAB, byteAt m 2] ++ m.drop 3)) := by
  have hheader : ¬ (byteAt u.inOperand 0 ≠ 0x55 ∨ byteAt u.inOperand 1 ≠ 0xAB) := by
    rw [hf]
    exact not_or.2 ⟨not_not.2 rfl, not_not.2 rfl⟩
  have hcrc : ¬ (u.crcChk = true ∧ crcTrailer (slice u.inOperand 2 (u.inOperand.length - 2)) ≠
      slice u.inOperand (u.inOperand.length - 2) u.inOperand.length) := by
    rw [← State.crcMismatch_iff, hf, encodeFrame, State.crcMismatch_frameSeal]
    exact Bool.false_ne_true
  have hcounter : u.receiveCounter u.inOperand = c.toNat := by
    rw [hf, encodeFrame, State.receiveCounter_frameSeal hctr]
  have hct : slice u.inOperand 5 (u.inOperand.length - 2) =
      ccmEncrypt (u.buf .key) (frameNonce u.ivBytes c.toNat) [] (m.drop 3 ++ pad) := by
    rw [hf, encodeFrame, slice_frameSeal]
    rfl
  have hsize : byteAt u.inOperand 2 = byteAt m 2 := by rw [hf]; rfl
  have hresult : decodedFrame u.inOperand (m.drop 3 ++ pad) = [0x55, 0xAB, byteAt m 2] ++ m.drop 3 := by
    rw [hf, decodedFrame_encodeFrame _ _ _ _ hpad]
  rw [exec_frameDec, if_neg (by omega), if_neg (by omega), if_neg hheader, if_neg hcrc, hct, hcounter,
    ccmDecrypt_ccmEncrypt _ _ _ (u.buf_length .key), State.frameDecWith_some, hsize, hcounter, hresult]

end Sys2Proof.Machine

namespace Sys2Proof.Proofs

open Sys2Proof.Machine

/-- Settles O37: the completion of either outcome, written out. -/
theorem crc16WritesTheTwoBytes : Obligations.Crc16WritesTheTwoBytes := by
  intro s
  rw [exec_crc16, State.finish_eq, State.finish_eq]
  split
  · rfl
  · rfl

/-- Settles O40: the counters' encodings stand at the same place of the nonces. -/
theorem frameNonceIsInjectiveInTheCounter : Obligations.FrameNonceIsInjectiveInTheCounter :=
  fun iv _ _ h1 h2 h => beBytes_injective_of_lt h1 h2 (List.append_cancel_left (as := iv ++ zeros 4) h)

/-- Settles O38, end by end. -/
theorem frameEncBuildsTheFrame : Obligations.FrameEncBuildsTheFrame := by
  intro s padsrc
  obtain ⟨t, hexec, hend⟩ := exec_frameEncEnd padsrc s
  refine ⟨t, hexec, ?_⟩
  rw [← State.framePad]
  cases hend with
  | lenErr hlen =>
    rw [if_pos hlen]
    exact s.failOut_spec 0x40 .lenErr nofun
  | ctrExhausted hlen hctr =>
    rw [if_neg hlen, if_pos hctr]
    exact s.failOut_spec 0x40 .ctrExhausted nofun
  | entropyErr hlen hctr hpad =>
    rw [if_neg hlen, if_neg hctr, hpad]
    exact s.afterDraw.failOut_spec 0x40 .entropyErr nofun
  | framed pad hlen hctr hpad =>
    rw [if_neg hlen, if_neg hctr, hpad]
    have hlength := State.encodeFrame_inOperand_length hlen hpad
    have hfits : (encodeFrame (s.buf .key) s.ivBytes s.inOperand s.counter.toNat pad).length ≤ 512 := by omega
    have hspec := (s.afterFrame padsrc).succeedOut_spec 0x40 _ hfits
    refine ⟨s.inOperand, _, _, rfl, rfl, frameBody_eq _ s.counter _, hspec, ?_⟩
    rw [State.toNat_succeedOut_outLen _ _ hfits, hlength]

/-- Settles O41: each end's COUNTER and code; a counter below its greatest value has a successor. -/
theorem frameCounterNeverWraps : Obligations.FrameCounterNeverWraps := by
  intro s t padsrc hexec
  cases frameEncEnd_of_exec hexec with
  | lenErr hlen =>
    rw [State.errCode_failOut]
    split
    · exact ⟨nofun, fun _ => rfl, fun _ hmin hmax => absurd hlen (by omega)⟩
    · exact ⟨rfl, by decide⟩
  | ctrExhausted hlen hctr =>
    rw [State.errCode_failOut, if_pos hctr.1]
    exact ⟨nofun, fun _ => rfl, fun _ _ _ => rfl⟩
  | entropyErr hlen hctr hpad =>
    rw [State.errCode_failOut]
    split
    next hinc => exact ⟨nofun, fun _ => rfl, fun hmax _ _ => absurd ⟨hinc, hmax⟩ hctr⟩
    next => exact ⟨rfl, by decide⟩
  | framed pad hlen hctr hpad =>
    rw [State.errCode_succeedOut]
    split
    next hinc =>
      have hlast : s.counter ≠ 0xFFFFFFFF := fun h => hctr ⟨hinc, h⟩
      refine ⟨fun _ => ?_, fun h => absurd rfl h, fun hmax _ _ => absurd hmax hlast⟩
      rw [State.succeedOut_counter, State.afterFrame, if_pos hinc]
      bv_omega
    next hinc => exact ⟨if_neg hinc, by decide⟩

/-- Settles O39, check by check. -/
theorem frameDecParsesTheFrame : Obligations.FrameDecParsesTheFrame := by
  intro s
  refine ⟨_, s.inOperand, exec_frameDec s, rfl, ?_⟩
  split
  next => exact s.failOut_spec 0x41 .lenErr nofun
  next hmax =>
    rw [State.inOperand_length_of_le (not_lt.1 hmax), ← crcTrailer]
    split
    next => exact s.failOut_spec 0x41 .frameErr nofun
    next hmin =>
      split
      next => exact s.failOut_spec 0x41 .frameErr nofun
      next =>
        split
        next => exact s.failOut_spec 0x41 .crcErr nofun
        next =>
          refine ⟨s.receiveCounter s.inOperand, rfl, ?_⟩
          rw [← frameNonce]
          cases hp : ccmDecrypt (s.buf .key) (frameNonce s.ivBytes (s.receiveCounter s.inOperand)) []
              (slice s.inOperand 5 (s.inLen.toNat - 2)) with
          | none => exact s.failOut_spec 0x41 .authFail nofun
          | some p => exact State.succeedOut_decodedFrame_spec 0x41 (not_lt.1 hmin) (not_lt.1 hmax) hp

/-- Settles O42: a code 0 is reported at the one end that frames; the premises make the second state's operand that
frame, under the KEY, IV and counter that the second state reads, too. -/
theorem frameDecReturnsWhatFrameEncFramed : Obligations.FrameDecReturnsWhatFrameEncFramed := by
  intro s t u padsrc henc hcode hkey hiv hctrHi hinLen hlooped
  cases frameEncEnd_of_exec henc with
  | lenErr | ctrExhausted | entropyErr => cases (State.errCode_failOut ..).symm.trans hcode
  | framed pad hlen _ hpad =>
    have hlength := State.encodeFrame_inOperand_length hlen hpad
    have hfits : (encodeFrame (s.buf .key) s.ivBytes s.inOperand s.counter.toNat pad).length ≤ 512 := by omega
    have hout := (s.afterFrame padsrc).toNat_succeedOut_outLen 0x40 hfits
    have hoperand : s.inOperand.length = s.inLen.toNat := State.inOperand_length_of_le (by omega)
    have hsize : byteAt s.inOperand 2 = byteAt (s.buf .input) 2 := byteAt_take _ (by omega)
    have hframe : u.inOperand = encodeFrame (u.buf .key) u.ivBytes s.inOperand s.counter.toNat pad := by
      rw [hkey, State.ivBytes, hiv, ← State.ivBytes, State.inOperand, State.bufTake, hinLen, hlooped, hout,
        State.take_output_succeedOut _ _ hfits]
    have hresult : ([0x55, 0xAB, byteAt s.inOperand 2] ++ s.inOperand.drop 3).length = s.inLen.toNat := by
      rw [List.length_append, List.length_drop, hoperand]
      exact Nat.add_sub_cancel' (by omega : 3 ≤ s.inLen.toNat)
    refine ⟨_, exec_frameDec_of_framed (s.framePad_length padsrc pad hpad) (by rw [hinLen, hout]; omega)
      (by rw [hinLen, hout]; exact hfits) hctrHi hframe, State.errCode_succeedOut .., ?_, ?_, hsize, ?_⟩
    · rw [State.succeedOut_outLen, hresult, BitVec.ofNat_toNat, BitVec.setWidth_eq]
    · exact (BitVec.ofNat_toNat ..).trans (BitVec.setWidth_eq _)
    · have htake := (u.withReceived (byteAt s.inOperand 2) s.counter.toNat).take_output_succeedOut 0x41
        (hresult.trans_le (by omega))
      rw [hresult, hsize] at htake
      rw [hsize]
      exact htake

end Sys2Proof.Proofs
end

section
/-! What the host's accesses can tell of KEY and `D`: nothing. The bytes of KEY and the scalar are fields no bus read,
no host write and no interrupt depends on (R124, R135, R921). Then the totality of a step, the range of a drawn scalar
and the interrupt line (R901, R916, R923). -/

namespace Sys2Proof.Machine

/-! ### Two states that differ in KEY and `D` only -/

/-- The second state is the first with another memory and another scalar, the memory alike outside KEY. -/
theorem SameButSecrets.exists_eq_withSecrets {s t : State} (h : SameButSecrets s t) :
    ∃ m d, t = { s with mem := m, d := d } ∧
      ∀ a, Buffer.key.holds a = false → Memory.read s.mem a = Memory.read m a :=
  ⟨t.mem, t.d, congrArg (fun u : State => { u with mem := t.mem, d := t.d }) h.fields.symm, h.bytes⟩

theorem SameButSecrets.hostProgram {s t : State} (h : SameButSecrets s t) : s.hostProgram = t.hostProgram :=
  (congrArg State.hostProgram h.fields :)

theorem SameButSecrets.busyFlag {s t : State} (h : SameButSecrets s t) : s.busyFlag = t.busyFlag :=
  (congrArg State.busyFlag h.fields :)

theorem SameButSecrets.irq {s t : State} (h : SameButSecrets s t) : s.irq = t.irq :=
  (congrArg State.irq h.fields :)

theorem SameButSecrets.busLog {s t : State} (h : SameButSecrets s t) : s.busLog = t.busLog :=
  (congrArg State.busLog h.fields :)

/-! ### Reads -/

/-- No register shows KEY or `D`; STATUS shows D_VALID only (R105, R135). -/
theorem SameButSecrets.regRead {s t : State} (h : SameButSecrets s t) (r : Reg) : s.regRead r = t.regRead r := by
  obtain ⟨m, d, rfl, -⟩ := h.exists_eq_withSecrets
  cases r <;> rfl

theorem SameButSecrets.buf {s t : State} (h : SameButSecrets s t) {b : Buffer} (hb : b ≠ .key) : s.buf b = t.buf b :=
  State.buf_congr _ _ b fun a ha => h.bytes a (Buffer.not_holds_of_ne hb a ha)

/-- KEY reads 0, and another buffer's word has no byte of KEY (R207, R210). -/
theorem SameButSecrets.bufWordRead {s t : State} (h : SameButSecrets s t) {b : Buffer} {index : Nat}
    (hfits : index + 4 ≤ b.size) : s.bufWordRead b index = t.bufWordRead b index := by
  rw [s.bufWordRead_eq, t.bufWordRead_eq]
  split
  · rfl
  next hb =>
    rw [Memory.readBytes_congr s.mem t.mem _ _ fun a hlo hhi =>
      h.bytes a (Buffer.not_holds_of_ne hb a ((b.holds_iff a).2 ⟨by omega, by omega⟩))]

theorem SameButSecrets.locationRead {s t : State} (h : SameButSecrets s t) {off : Nat} {l : Location}
    (hl : accessLocation off 4 = some l) : s.locationRead l = t.locationRead l := by
  cases l with
  | reg r => exact h.regRead r
  | buf b index => exact h.bufWordRead (word_within_buffer hl)

theorem SameButSecrets.windowRead {s t : State} (h : SameButSecrets s t) (off bytes : Nat) :
    s.windowRead off bytes = t.windowRead off bytes := by
  rw [State.windowRead, State.windowRead]
  cases hl : accessLocation off bytes with
  | none => rfl
  | some l =>
    obtain ⟨rfl, -, -⟩ := (accessLocation_eq_some_iff off bytes l).1 hl
    exact congrArg BusReply.readData (h.locationRead hl)

/-- An access is answered alike: a write's answer depends on its address and width only (R205). -/
theorem SameButSecrets.busReply {s t : State} (h : SameButSecrets s t) (a : BusAccess) :
    s.busReply a = t.busReply a := by
  cases a with
  | write addr bytes v => rfl
  | read addr bytes =>
    rw [State.busReply, State.busReply]
    cases windowOffset addr with
    | none => rfl
    | some off => exact h.windowRead off bytes

theorem Buffer.ne_key_of_readable {b : Buffer} (h : (b.access != .writeOnly) = true) : b ≠ .key := by
  rintro rfl
  cases h

theorem SameButSecrets.observation {s t : State} (h : SameButSecrets s t) : s.observation = t.observation := by
  have hregisters : Reg.all.map s.regRead = Reg.all.map t.regRead := List.map_congr_left fun r _ => h.regRead r
  have hbuffers : (Buffer.all.filter fun b => b.access != .writeOnly).map s.buf =
      (Buffer.all.filter fun b => b.access != .writeOnly).map t.buf :=
    List.map_congr_left fun b hb => h.buf (Buffer.ne_key_of_readable (List.mem_filter.1 hb).2)
  rw [State.observation, State.observation, hregisters, hbuffers, h.irq, h.busLog]

/-! ### Writes -/

/-- In canonical form the same write keeps two memories alike wherever they are: it sets the bytes it covers, and
leaves the others. -/
theorem Memory.read_writeBytes_congr {m m' : Memory} (hm : wf m = true) (hm' : wf m' = true) (a : Nat)
    (bytes : ByteString) {i : Nat} (h : read m i = read m' i) :
    read (writeBytes m a bytes) i = read (writeBytes m' a bytes) i := by
  by_cases hin : a ≤ i ∧ i < a + bytes.length
  · obtain ⟨j, rfl⟩ := Nat.exists_eq_add_of_le hin.1
    have hj : j < bytes.length := by omega
    rw [read_writeBytes_of_inside hm a bytes hj, read_writeBytes_of_inside hm' a bytes hj]
  · rw [read_writeBytes_of_outside m a bytes i (by omega), read_writeBytes_of_outside m' a bytes i (by omega), h]

theorem SameButSecrets.regWrite {s t : State} (h : SameButSecrets s t) (v : Word) (r : Reg) :
    SameButSecrets (s.regWrite v r) (t.regWrite v r) := by
  obtain ⟨m, d, rfl, hbytes⟩ := h.exists_eq_withSecrets
  cases r <;> exact ⟨rfl, hbytes⟩

theorem SameButSecrets.bufWordWrite {s t : State} (h : SameButSecrets s t) (hs : Memory.wf s.mem = true)
    (ht : Memory.wf t.mem = true) (v : Word) (b : Buffer) (index : Nat) :
    SameButSecrets (s.bufWordWrite v b index) (t.bufWordWrite v b index) := by
  rw [s.bufWordWrite_eq, t.bufWordWrite_eq]
  split
  · exact h
  · obtain ⟨m, d, rfl, hbytes⟩ := h.exists_eq_withSecrets
    exact ⟨rfl, fun a ha => Memory.read_writeBytes_congr hs ht _ _ (hbytes a ha)⟩

theorem SameButSecrets.locationWrite {s t : State} (h : SameButSecrets s t) (hs : Memory.wf s.mem = true)
    (ht : Memory.wf t.mem = true) (v : Word) (l : Location) :
    SameButSecrets (s.locationWrite v l) (t.locationWrite v l) := by
  cases l with
  | reg r => exact h.regWrite v r
  | buf b index => exact h.bufWordWrite hs ht v b index

/-- Both writes are performed, or both are dropped with OVR set: BUSY is no secret (R105, R216). -/
theorem SameButSecrets.hostWrite {s t : State} (h : SameButSecrets s t) (hs : Memory.wf s.mem = true)
    (ht : Memory.wf t.mem = true) (v : Word) (l : Location) :
    SameButSecrets (s.hostWrite v l) (t.hostWrite v l) := by
  rw [State.hostWrite, State.hostWrite, ← h.busyFlag]
  split
  · obtain ⟨m, d, rfl, hbytes⟩ := h.exists_eq_withSecrets
    exact ⟨rfl, hbytes⟩
  · exact h.locationWrite hs ht v l

theorem SameButSecrets.busEffect {s t : State} (h : SameButSecrets s t) (hs : Memory.wf s.mem = true)
    (ht : Memory.wf t.mem = true) (a : BusAccess) : SameButSecrets (s.busEffect a) (t.busEffect a) := by
  cases a with
  | read addr bytes => exact h
  | write addr bytes v =>
    rw [State.busEffect, State.busEffect]
    cases windowOffset addr with
    | none => exact h
    | some off =>
      cases hl : accessLocation off bytes with
      | none => simpa only [State.windowWrite_of_none _ hl] using h
      | some l => simpa only [State.windowWrite_of_some _ hl] using h.hostWrite hs ht v l

/-! ### The host's step -/

theorem SameButSecrets.withProgram {s t : State} (h : SameButSecrets s t) (program : List HostOp) :
    SameButSecrets (s.withProgram program) (t.withProgram program) :=
  ⟨congrArg (·.withProgram program) h.fields, h.bytes⟩

theorem SameButSecrets.withBusLog {s t : State} (h : SameButSecrets s t) (log : List BusEvent) :
    SameButSecrets { s with busLog := log } { t with busLog := log } :=
  ⟨congrArg (fun u : State => { u with busLog := log }) h.fields, h.bytes⟩

/-- An access has the same effect and the same answer. -/
theorem SameButSecrets.hostAccess {s t : State} (h : SameButSecrets s t) (hs : Memory.wf s.mem = true)
    (ht : Memory.wf t.mem = true) (a : BusAccess) : SameButSecrets (s.hostAccess a) (t.hostAccess a) := by
  rw [State.hostAccess, State.hostAccess, h.busReply a, h.busLog]
  exact (h.busEffect hs ht a).withBusLog _

theorem SameButSecrets.hostMove {s t : State} (h : SameButSecrets s t) (hs : Memory.wf s.mem = true)
    (ht : Memory.wf t.mem = true) : SameButSecrets s.hostMove t.hostMove := by
  rw [State.hostMove, State.hostMove, ← h.hostProgram, ← h.busyFlag]
  cases s.hostProgram with
  | nil => exact h
  | cons op rest =>
    cases op with
    | access a => exact (h.withProgram rest).hostAccess hs ht a
    | pollIdle => exact (h.withProgram (if s.busyFlag then .pollIdle :: rest else rest)).hostAccess hs ht statusPoll

/-! ### A drawn scalar and the interrupt line -/

/-- Every scalar in range is drawn: the answer one less stands for it (R923). -/
theorem scalarAnswer_sub_one {d : Nat} (hpos : 1 ≤ d) (hd : d ≤ groupOrder - 1) : scalarAnswer (d - 1) = d := by
  rw [scalarAnswer, Nat.mod_eq_of_lt (by omega), Nat.add_sub_cancel' hpos]

/-- A drawn scalar is in range (R923). -/
theorem scalarAnswer_mem_range (r : Nat) : 1 ≤ scalarAnswer r ∧ scalarAnswer r ≤ groupOrder - 1 := by
  obtain ⟨hpos, hlt⟩ := Bool.and_eq_true_iff.1 (validScalar_scalarAnswer r)
  exact ⟨of_decide_eq_true hpos, Nat.le_sub_one_of_lt (of_decide_eq_true hlt)⟩

/-- The interrupt line is raised by a pending bit that is enabled (R916). -/
theorem State.irq_eq_true_iff (s : State) :
    s.irq = true ↔ ∃ k < 3, (s.irqStat &&& s.irqEn).getLsbD k = true := by
  simp only [State.irq, Bool.or_eq_true, BitVec.getLsbD_and, Nat.exists_lt_succ_right, Nat.not_lt_zero,
    false_and, exists_false, false_or]

/-- A bit vector is not zero exactly if it has a bit. -/
theorem exists_getLsbD_iff_ne_zero {w : Nat} (x : BitVec w) : (∃ k < w, x.getLsbD k = true) ↔ x ≠ 0 := by
  constructor
  · rintro ⟨k, -, hk⟩ rfl
    simp at hk
  · intro hne
    by_contra hnone
    refine hne (BitVec.eq_of_getLsbD_eq fun k hk => ?_)
    simpa using fun hbit => hnone ⟨k, hk, hbit⟩

end Sys2Proof.Machine

namespace Sys2Proof.Proofs

open Sys2Proof.Machine

/-- Settles O60: the second machine is the first with other secrets, which no read answers and no write looks at. -/
theorem hostAccessesDoNotDependOnKeyOrScalar : Obligations.HostAccessesDoNotDependOnKeyOrScalar := by
  intro s t hs ht hsame
  exact ⟨hsame.hostMove hs ht, hsame.observation⟩

/-- Settles O7, by the agent that moves (`exists_step`). -/
theorem everyStepAnswersANextState : Obligations.EveryStepAnswersANextState := by
  intro s
  obtain ⟨t, hstep, -⟩ := exists_step s
  exact ⟨t, hstep⟩

/-- Settles O18: the two directions are the two lemmas about `scalarAnswer`. -/
theorem drawnScalarsAreExactlyTheRange : Obligations.DrawnScalarsAreExactlyTheRange := by
  intro d
  constructor
  · rintro ⟨hpos, hd⟩
    exact ⟨d - 1, scalarAnswer_sub_one hpos hd⟩
  · rintro ⟨r, rfl⟩
    exact scalarAnswer_mem_range r

/-- Settles O57, by way of the bit that is both pending and enabled. -/
theorem irqIsAnEnabledPendingBit : Obligations.IrqIsAnEnabledPendingBit := fun s =>
  s.irq_eq_true_iff.trans (exists_getLsbD_iff_ne_zero _)

end Sys2Proof.Proofs
end

section
/-! Reset, said once of the initial state and carried to the platform's step: the two states differ in the agents around
the MSC only, of which no register, buffer or hidden state tells (R1001 to R1005; log 12). -/

namespace Sys2Proof.Machine

/-- R101's reset column, but for ID, VERSION and CTRL. -/
theorem State.regRead_reset {r : Reg} (hid : r ≠ .id) (hversion : r ≠ .version) (hctrl : r ≠ .ctrl) :
    State.reset.regRead r = 0 := by
  cases r with
  | id => exact absurd rfl hid
  | version => exact absurd rfl hversion
  | ctrl => exact absurd rfl hctrl
  | status => exact State.reset.regRead_status
  | cmd | result | irqEn | irqStat | aadLen | inLen | outLen | saltLen | ikmLen | privLen | counter | rxCtrHi
  | rxCounter | rxSize | crcResult | pad | iv => rfl

/-- Nothing is pending at reset, so the interrupt line is 0 (R916). -/
theorem State.irq_reset : State.reset.irq = false := rfl

theorem State.atReset_reset : AtReset State.reset where
  id := rfl
  version := rfl
  ctrl := rfl
  registers _ := State.regRead_reset
  buffers := State.buf_reset
  d := rfl
  dValid := rfl
  peerValid := rfl
  sharedValid := rfl
  fsm := rfl
  irq := State.irq_reset

/-- No register's value depends on the agents around the MSC. -/
theorem State.regRead_platformReset (s : State) (r : Reg) : s.platformReset.regRead r = State.reset.regRead r := by
  cases r <;> rfl

/-- The platform's reset gives the reset values whatever the state was, a command in flight included (R1002, R1003). -/
theorem State.atReset_platformReset (s : State) : AtReset s.platformReset where
  id := (s.regRead_platformReset .id).trans State.atReset_reset.id
  version := (s.regRead_platformReset .version).trans State.atReset_reset.version
  ctrl := (s.regRead_platformReset .ctrl).trans State.atReset_reset.ctrl
  registers r hid hversion hctrl := (s.regRead_platformReset r).trans (State.regRead_reset hid hversion hctrl)
  buffers b := (State.buf_of_mem_eq s.platformReset_mem b).trans (State.buf_reset b)
  d := s.platformReset_d
  dValid := s.platformReset_dValid
  peerValid := s.platformReset_peerValid
  sharedValid := s.platformReset_sharedValid
  fsm := s.platformReset_fsm
  irq := State.irq_reset

end Sys2Proof.Machine

namespace Sys2Proof.Proofs

open Sys2Proof.Machine

/-- Settles O13: a scheduled platform resets the MSC. -/
theorem resetGivesTheResetValues : Obligations.ResetGivesTheResetValues := by
  intro s rest hsched
  exact ⟨_, step_of_scheduled hsched, State.atReset_platformReset { s with schedule := rest }⟩

/-- Settles O14. -/
theorem initialStateIsTheResetState : Obligations.InitialStateIsTheResetState := State.atReset_reset

end Sys2Proof.Proofs
end
